-- ==== Sys2Proof/Word.lean ====
section
/-! DEFINITION. The word types of TLZX: a byte of a memory (20_memory.md R48) and a 32-bit register or host datum
(10_state.md R20). -/

namespace Sys2Proof

/-- One byte cell of `IN`, `OUT` or the window. -/
abbrev Byte := BitVec 8

/-- A 32-bit register of the CSR block, a repeated-offset register, or the datum of a host access. -/
abbrev Word := BitVec 32

end Sys2Proof
end

