-- ==== Sys2Proof/Config.lean ====
section
/-! DEFINITION. What an instance of TLZX fixes (00_scope.md R6, R7): the instance parameters, the sizes derived from them,
the constants, and the one free value of the model, the draw of 20_memory.md R49. -/

namespace Sys2Proof

/-- How a slot-2 match updates the repeated-offset registers (44_lzx_symbols.md R137, 90_conflicts.md C1). -/
inductive Slot2Mode where
  | swap
  | rotate
  deriving DecidableEq, Repr

/-- The instance parameters of 00_scope.md R6, and `LENGTH_CODES_SENT`, which 90_conflicts.md C3 makes one
(log entries 1 and 2). They are fixed for the instance's life. -/
structure Params where
  /-- `WINDOW_BITS`, 15..18. -/
  windowBits : Nat
  /-- `IN_CAP`, bytes of the `IN` memory. -/
  inCap : Nat
  /-- `OUT_CAP`, bytes of the `OUT` memory. -/
  outCap : Nat
  /-- `MAGIC[0]`. -/
  magic0 : Byte
  /-- `MAGIC[1]`. -/
  magic1 : Byte
  /-- `MAGIC[2]`. -/
  magic2 : Byte
  /-- `SLOT2_MODE`. -/
  slot2Mode : Slot2Mode
  /-- `UNCOMP_ODD_PAD = 1`. -/
  oddPad : Bool
  /-- `LENGTH_CODES_SENT`: length-tree entries sent by pass 3. -/
  lengthCodesSent : Nat
  deriving DecidableEq, Repr

namespace Params

/-- The default instance of 00_scope.md R6. -/
def default : Params where
  windowBits := 16
  inCap := 1048576
  outCap := 1048576
  magic0 := 0x58
  magic1 := 0x4E
  magic2 := 0x42
  slot2Mode := .swap
  oddPad := true
  lengthCodesSent := 249

/-- The instances that exist (00_scope.md R6, R7; 93_implementation_defined.md I34). -/
def valid (p : Params) : Bool :=
  decide (15 ≤ p.windowBits) && decide (p.windowBits ≤ 18)
    && decide (14 ≤ p.inCap) && decide (p.inCap ≤ 1048576)
    && decide (p.outCap ≤ 1048576)
    && (p.lengthCodesSent == 249 || p.lengthCodesSent == 250)

/-- `W = 2^WINDOW_BITS`, the window's size in bytes (00_scope.md R6). -/
def windowSize (p : Params) : Nat := 2 ^ p.windowBits

/-- `NUM_POSITION_SLOTS = 2 * WINDOW_BITS` (00_scope.md R6). -/
def numPositionSlots (p : Params) : Nat := 2 * p.windowBits

/-- `MAIN_ELEMENTS = 256 + 8 * NUM_POSITION_SLOTS` (00_scope.md R6). -/
def mainElements (p : Params) : Nat := 256 + 8 * p.numPositionSlots

/-- The signature as a 24-bit value, `MAGIC[0]` in bits 23:16: the order of the opcode table's container word. -/
def magicWord (p : Params) : BitVec 24 := p.magic0 ++ p.magic1 ++ p.magic2

end Params

namespace Config

/-- `LENGTH_SYMBOLS` (00_scope.md R6). -/
def lengthSymbols : Nat := 250
/-- `ALIGNED_SYMBOLS` (00_scope.md R6). -/
def alignedSymbols : Nat := 8
/-- `PRETREE_SYMBOLS` (00_scope.md R6). -/
def pretreeSymbols : Nat := 20
/-- `MAX_CODE_LEN` (00_scope.md R6). -/
def maxCodeLen : Nat := 16
/-- `NUM_PRIMARY_LENGTHS`: the length header that announces a length footer (00_scope.md R6). -/
def numPrimaryLengths : Nat := 7
/-- `MIN_MATCH` (00_scope.md R6). -/
def minMatch : Nat := 2
/-- `DEFAULT_FRAME_SIZE` (00_scope.md R6). -/
def defaultFrameSize : Nat := 32768
/-- The constant of the `ID` register (10_state.md R21). -/
def idValue : Word := 0x4C5A5801

/-- The draws of 20_memory.md R49: what the n-th read of an unwritten byte returns. A FREE VALUE: it has no body, so
nothing can be proved of it, and every claim holds whatever the draws are (log entry 6). -/
opaque draw : Nat → Byte

end Config

end Sys2Proof
end

