-- ==== Sys2Proof/Syntax.lean ====
section
/-! DEFINITION. The syntax: one constructor of `Instr` per row of spec/opcode_table.json. A constructor's operands are the
fields of the word that row's "format" names (30_encoding.md R82: a byte, a bit field, a decoded symbol value, a host
access); the footers that follow a word in the input are read by the instruction's meaning, in the order of its
rule's pseudocode (41_bit_reader.md R103, log entry 5). -/

namespace Sys2Proof

/-- The width of a host access (20_memory.md R55). -/
inductive Size where
  | b8
  | b16
  | b32
  deriving DecidableEq, Repr

/-- Bytes moved by an access of this width. -/
def Size.bytes : Size → Nat
  | .b8 => 1
  | .b16 => 2
  | .b32 => 4

/-- A host access as it arrives on the bus: kind, address relative to the base of TLZX (20_memory.md R59), width, and
the datum of a write (an 8-bit write uses bits 7:0). -/
inductive Access where
  | read (addr : Word) (size : Size)
  | write (addr : Word) (size : Size) (data : Word)
  deriving DecidableEq, Repr

/-- The elements and accesses of spec/opcode_table.json, in the table's order. -/
inductive Instr where
  /-- CONT_RAW (R88): container word with the signature and flags bit 7 = 0. -/
  | contRaw (platform version flags : Byte)
  /-- CONT_COMPRESSED (R89): container word with the signature and flags bit 7 = 1. -/
  | contCompressed (platform version flags : Byte)
  /-- CONT_BADMAGIC (R87): the first three bytes, `IN[0]` in bits 23:16, are not the signature. -/
  | contBadmagic (magic : BitVec 24)
  /-- RAW_COPY (R90): the payload of a CONT_RAW container. -/
  | rawCopy
  /-- FRAME_EXT (R147): first header byte 0xFF. -/
  | frameExt
  /-- FRAME_STD (R146): first header byte `h0`, not 0xFF. -/
  | frameStd (h0 : Byte)
  /-- E8_OFF (R113): the stream header's bit is 0. -/
  | e8Off
  /-- E8_ON (R114): the stream header's bit is 1. -/
  | e8On
  /-- BLK_VERBATIM (R117): block type 1. -/
  | blkVerbatim
  /-- BLK_ALIGNED (R118): block type 2. -/
  | blkAligned
  /-- BLK_UNCOMP (R119): block type 3. -/
  | blkUncomp
  /-- BLK_INVALID (R116): block type 0 or 4..7. -/
  | blkInvalid (t : BitVec 3)
  /-- ALIGNED_LENS (R121): the eight aligned-tree lengths; no selector. -/
  | alignedLens
  /-- PRETREE (R124): the twenty pretree lengths of a pass; no selector. -/
  | pretree
  /-- PRE_DELTA (R125): pretree symbol `z` in 0..16. -/
  | preDelta (z : BitVec 5)
  /-- PRE_ZERO_SHORT (R126): pretree symbol 17. -/
  | preZeroShort
  /-- PRE_ZERO_LONG (R127): pretree symbol 18. -/
  | preZeroLong
  /-- PRE_REPEAT (R128): pretree symbol 19. -/
  | preRepeat
  /-- MAIN_LITERAL (R133): main symbol 0..255. -/
  | mainLiteral (b : Byte)
  /-- MATCH_R0 (R135): main symbol of slot 0, length header `lh`. -/
  | matchR0 (lh : BitVec 3)
  /-- MATCH_R1 (R136): main symbol of slot 1. -/
  | matchR1 (lh : BitVec 3)
  /-- MATCH_R2 (R137): main symbol of slot 2. -/
  | matchR2 (lh : BitVec 3)
  /-- MATCH_S3 (R138): main symbol of slot 3. -/
  | matchS3 (lh : BitVec 3)
  /-- MATCH_S4 (R138): main symbol of slot 4. -/
  | matchS4 (lh : BitVec 3)
  /-- MATCH_S5 (R138): main symbol of slot 5. -/
  | matchS5 (lh : BitVec 3)
  /-- MATCH_S6 (R138): main symbol of slot 6. -/
  | matchS6 (lh : BitVec 3)
  /-- MATCH_S7 (R138): main symbol of slot 7. -/
  | matchS7 (lh : BitVec 3)
  /-- MATCH_S8 (R138): main symbol of slot 8. -/
  | matchS8 (lh : BitVec 3)
  /-- MATCH_S9 (R138): main symbol of slot 9. -/
  | matchS9 (lh : BitVec 3)
  /-- MATCH_S10 (R138): main symbol of slot 10. -/
  | matchS10 (lh : BitVec 3)
  /-- MATCH_S11 (R138): main symbol of slot 11. -/
  | matchS11 (lh : BitVec 3)
  /-- MATCH_S12 (R138): main symbol of slot 12. -/
  | matchS12 (lh : BitVec 3)
  /-- MATCH_S13 (R138): main symbol of slot 13. -/
  | matchS13 (lh : BitVec 3)
  /-- MATCH_S14 (R138): main symbol of slot 14. -/
  | matchS14 (lh : BitVec 3)
  /-- MATCH_S15 (R138): main symbol of slot 15. -/
  | matchS15 (lh : BitVec 3)
  /-- MATCH_S16 (R138): main symbol of slot 16. -/
  | matchS16 (lh : BitVec 3)
  /-- MATCH_S17 (R138): main symbol of slot 17. -/
  | matchS17 (lh : BitVec 3)
  /-- MATCH_S18 (R138): main symbol of slot 18. -/
  | matchS18 (lh : BitVec 3)
  /-- MATCH_S19 (R138): main symbol of slot 19. -/
  | matchS19 (lh : BitVec 3)
  /-- MATCH_S20 (R138): main symbol of slot 20. -/
  | matchS20 (lh : BitVec 3)
  /-- MATCH_S21 (R138): main symbol of slot 21. -/
  | matchS21 (lh : BitVec 3)
  /-- MATCH_S22 (R138): main symbol of slot 22. -/
  | matchS22 (lh : BitVec 3)
  /-- MATCH_S23 (R138): main symbol of slot 23. -/
  | matchS23 (lh : BitVec 3)
  /-- MATCH_S24 (R138): main symbol of slot 24. -/
  | matchS24 (lh : BitVec 3)
  /-- MATCH_S25 (R138): main symbol of slot 25. -/
  | matchS25 (lh : BitVec 3)
  /-- MATCH_S26 (R138): main symbol of slot 26. -/
  | matchS26 (lh : BitVec 3)
  /-- MATCH_S27 (R138): main symbol of slot 27. -/
  | matchS27 (lh : BitVec 3)
  /-- MATCH_S28 (R138): main symbol of slot 28. -/
  | matchS28 (lh : BitVec 3)
  /-- MATCH_S29 (R138): main symbol of slot 29. -/
  | matchS29 (lh : BitVec 3)
  /-- MATCH_S30 (R138): main symbol of slot 30. -/
  | matchS30 (lh : BitVec 3)
  /-- MATCH_S31 (R138): main symbol of slot 31. -/
  | matchS31 (lh : BitVec 3)
  /-- MATCH_S32 (R138): main symbol of slot 32. -/
  | matchS32 (lh : BitVec 3)
  /-- MATCH_S33 (R138): main symbol of slot 33. -/
  | matchS33 (lh : BitVec 3)
  /-- MATCH_S34 (R138): main symbol of slot 34. -/
  | matchS34 (lh : BitVec 3)
  /-- MATCH_S35 (R138): main symbol of slot 35. -/
  | matchS35 (lh : BitVec 3)
  /-- LEN_FOOTER (R134): the length-tree code of a match whose length header is 7. -/
  | lenFooter
  /-- ALIGNED_SYM (R139): the high bits and aligned-tree code of an offset footer in an Aligned block. -/
  | alignedSym
  /-- UNCOMP_ALIGN_R (R119): the align pad and the three R words at the start of an Uncompressed block's body. -/
  | uncompAlignR
  /-- RAW_BYTE (R143): one data byte of an Uncompressed block. -/
  | rawByte (b : Byte)
  /-- ODD_PAD (R131): the pad byte after an odd-length Uncompressed block; its value is ignored and not read. -/
  | oddPad
  /-- CSR_READ (R152): a 32-bit read of CSR offset `o`. -/
  | csrRead (o : BitVec 12)
  /-- CSR_WRITE (R153): a 32-bit write of `v` to CSR offset `o`. -/
  | csrWrite (o : BitVec 12) (v : Word)
  /-- START (R155): a write of `v` to CTRL with bit 0 = 1 and bit 1 = 0. -/
  | start (v : Word)
  /-- SOFT_RESET (R156): a write of `v` to CTRL with bit 1 = 1. -/
  | softReset (v : Word)
  /-- IRQ_EN (R157): a write of `v` to CTRL with bits 0 and 1 = 0. -/
  | irqEn (v : Word)
  /-- W1C (R158): a write of `v` to STATUS. -/
  | w1c (v : Word)
  /-- IN_LEN (R159): a write of `v` to IN_LEN. -/
  | inLen (v : Word)
  /-- IN_WRITE (R161): a write to the `IN` aperture at offset `a`. -/
  | inWrite (a : BitVec 20) (size : Size) (v : Word)
  /-- IN_READ (R162): a read of the `IN` aperture at offset `a`. -/
  | inRead (a : BitVec 20) (size : Size)
  /-- OUT_READ (R163): a read of the `OUT` aperture at offset `a`. -/
  | outRead (a : BitVec 20) (size : Size)
  /-- OUT_WRITE (R164): a write to the `OUT` aperture. -/
  | outWrite (a : BitVec 20) (size : Size) (v : Word)
  /-- BUS_ERROR (R166): an access that R59 and R55 admit nowhere. -/
  | busError (acc : Access)
  deriving DecidableEq, Repr

/-- The match instruction of a position slot (30_encoding.md R82: MATCH_R0, MATCH_R1, MATCH_R2, then MATCH_S<slot>). -/
def Instr.ofSlot : Nat → BitVec 3 → Option Instr
  | 0, lh => some (.matchR0 lh)
  | 1, lh => some (.matchR1 lh)
  | 2, lh => some (.matchR2 lh)
  | 3, lh => some (.matchS3 lh)
  | 4, lh => some (.matchS4 lh)
  | 5, lh => some (.matchS5 lh)
  | 6, lh => some (.matchS6 lh)
  | 7, lh => some (.matchS7 lh)
  | 8, lh => some (.matchS8 lh)
  | 9, lh => some (.matchS9 lh)
  | 10, lh => some (.matchS10 lh)
  | 11, lh => some (.matchS11 lh)
  | 12, lh => some (.matchS12 lh)
  | 13, lh => some (.matchS13 lh)
  | 14, lh => some (.matchS14 lh)
  | 15, lh => some (.matchS15 lh)
  | 16, lh => some (.matchS16 lh)
  | 17, lh => some (.matchS17 lh)
  | 18, lh => some (.matchS18 lh)
  | 19, lh => some (.matchS19 lh)
  | 20, lh => some (.matchS20 lh)
  | 21, lh => some (.matchS21 lh)
  | 22, lh => some (.matchS22 lh)
  | 23, lh => some (.matchS23 lh)
  | 24, lh => some (.matchS24 lh)
  | 25, lh => some (.matchS25 lh)
  | 26, lh => some (.matchS26 lh)
  | 27, lh => some (.matchS27 lh)
  | 28, lh => some (.matchS28 lh)
  | 29, lh => some (.matchS29 lh)
  | 30, lh => some (.matchS30 lh)
  | 31, lh => some (.matchS31 lh)
  | 32, lh => some (.matchS32 lh)
  | 33, lh => some (.matchS33 lh)
  | 34, lh => some (.matchS34 lh)
  | 35, lh => some (.matchS35 lh)
  | _, _ => none

end Sys2Proof
end

