-- ==== Sys2Proof/WellFormed.lean ====
section
/-! DEFINITION. Which terms of `Instr` some input or some host access encodes on an instance: the encoding limits of
30_encoding.md R66 to R79 and the access limits of 20_memory.md R55 and R59. -/

namespace Sys2Proof

/-- A width and address the apertures admit: 8 bits anywhere, 32 bits at a multiple of 4 (20_memory.md R55). -/
def apertureWidthOk (a : Nat) : Size → Bool
  | .b8 => true
  | .b16 => false
  | .b32 => a % 4 == 0

/-- The region of the address map an address lies in (20_memory.md R59). -/
inductive Region where
  | csr
  | inAperture
  | outAperture
  | unmapped
  deriving DecidableEq, Repr

/-- The address map of 20_memory.md R59. -/
def regionOf (addr : Word) : Region :=
  if addr.extractLsb' 12 20 = 0 then .csr
  else if addr.extractLsb' 20 12 = 1 then .inAperture
  else if addr.extractLsb' 20 12 = 2 then .outAperture
  else .unmapped

/-- The width rule of CSR accesses: 32 bits, at a multiple of 4 (20_memory.md R55). -/
def csrWidthOk (addr : Word) (size : Size) : Bool :=
  size == .b32 && addr.toNat % 4 == 0

/-- The access belongs to a row of the opcode table other than BUS_ERROR, whatever the state: its address is mapped and
its width is one the region admits; a write to `OUT` is the OUT_WRITE row at any width (46_host_interface.md R164). -/
def Access.placed : Access → Bool
  | .read addr size =>
    match regionOf addr with
    | .csr => csrWidthOk addr size
    | .inAperture => apertureWidthOk addr.toNat size
    | .outAperture => apertureWidthOk addr.toNat size
    | .unmapped => false
  | .write addr size _ =>
    match regionOf addr with
    | .csr => csrWidthOk addr size
    | .inAperture => apertureWidthOk addr.toNat size
    | .outAperture => true
    | .unmapped => false

/-- A CSR offset whose writes act (46_host_interface.md R153): CTRL, STATUS, IN_LEN. Their writes are the rows START,
SOFT_RESET, IRQ_EN, W1C and IN_LEN (log entry 12). -/
def actingCsr (o : BitVec 12) : Bool :=
  o == 0x004 || o == 0x008 || o == 0x014

/-- The slot of a match exists on the instance (30_encoding.md R77). -/
def slotExists (p : Params) (slot : Nat) : Bool :=
  decide (slot < p.numPositionSlots)

/-- The term is the reading of some word on the instance `p`. -/
def Instr.wellFormed (p : Params) : Instr → Bool
  | .contRaw _ _ flags => !flags.getLsbD 7
  | .contCompressed _ _ flags => flags.getLsbD 7
  | .contBadmagic m => m != p.magicWord
  | .rawCopy => true
  | .frameExt => true
  | .frameStd h0 => h0 != 0xFF
  | .e8Off => true
  | .e8On => true
  | .blkVerbatim => true
  | .blkAligned => true
  | .blkUncomp => true
  | .blkInvalid t => t != 1 && t != 2 && t != 3
  | .alignedLens => true
  | .pretree => true
  | .preDelta z => decide (z.toNat ≤ 16)
  | .preZeroShort => true
  | .preZeroLong => true
  | .preRepeat => true
  | .mainLiteral _ => true
  | .matchR0 _ => slotExists p 0
  | .matchR1 _ => slotExists p 1
  | .matchR2 _ => slotExists p 2
  | .matchS3 _ => slotExists p 3
  | .matchS4 _ => slotExists p 4
  | .matchS5 _ => slotExists p 5
  | .matchS6 _ => slotExists p 6
  | .matchS7 _ => slotExists p 7
  | .matchS8 _ => slotExists p 8
  | .matchS9 _ => slotExists p 9
  | .matchS10 _ => slotExists p 10
  | .matchS11 _ => slotExists p 11
  | .matchS12 _ => slotExists p 12
  | .matchS13 _ => slotExists p 13
  | .matchS14 _ => slotExists p 14
  | .matchS15 _ => slotExists p 15
  | .matchS16 _ => slotExists p 16
  | .matchS17 _ => slotExists p 17
  | .matchS18 _ => slotExists p 18
  | .matchS19 _ => slotExists p 19
  | .matchS20 _ => slotExists p 20
  | .matchS21 _ => slotExists p 21
  | .matchS22 _ => slotExists p 22
  | .matchS23 _ => slotExists p 23
  | .matchS24 _ => slotExists p 24
  | .matchS25 _ => slotExists p 25
  | .matchS26 _ => slotExists p 26
  | .matchS27 _ => slotExists p 27
  | .matchS28 _ => slotExists p 28
  | .matchS29 _ => slotExists p 29
  | .matchS30 _ => slotExists p 30
  | .matchS31 _ => slotExists p 31
  | .matchS32 _ => slotExists p 32
  | .matchS33 _ => slotExists p 33
  | .matchS34 _ => slotExists p 34
  | .matchS35 _ => slotExists p 35
  | .lenFooter => true
  | .alignedSym => true
  | .uncompAlignR => true
  | .rawByte _ => true
  | .oddPad => true
  | .csrRead o => o.toNat % 4 == 0
  | .csrWrite o _ => o.toNat % 4 == 0 && !actingCsr o
  | .start v => v.getLsbD 0 && !v.getLsbD 1
  | .softReset v => v.getLsbD 1
  | .irqEn v => !v.getLsbD 0 && !v.getLsbD 1
  | .w1c _ => true
  | .inLen _ => true
  | .inWrite a size _ => apertureWidthOk a.toNat size
  | .inRead a size => apertureWidthOk a.toNat size
  | .outRead a size => apertureWidthOk a.toNat size
  | .outWrite _ _ _ => true
  | .busError acc => !acc.placed

end Sys2Proof
end

