-- ==== Sys2Proof/Decode.lean ====
section
/-! DEFINITION. The decoder and, after it, the encoder. What is decoded is an element's selecting word in its decode
context (30_encoding.md R81, R82): the context says which table of 30_encoding.md the word belongs to, the word's value
selects the row. -/

namespace Sys2Proof

/-- A fetched word with its decode context, one constructor per format of spec/opcode_table.json. -/
inductive Fetched where
  /-- `IN[0..5]` as one value, `IN[0]` in bits 47:40 (R66); bits 23:0 are 0, unread, when the signature does not match. -/
  | container (w : BitVec 48)
  /-- The payload of a CONT_RAW container: no selector (R90). -/
  | rawPayload
  /-- The first byte of a frame header (R67). -/
  | frame (h0 : Byte)
  /-- The stream header's first bit (R68). -/
  | stream (e8 : BitVec 1)
  /-- The block header's type (R70). -/
  | block (t : BitVec 3)
  /-- The lengths that follow an Aligned block header: no selector (R71). -/
  | alignedLens
  /-- The start of a tree-reading pass: no selector (R73). -/
  | pretree
  /-- A decoded pretree symbol (R74). -/
  | preSym (z : BitVec 5)
  /-- A decoded main symbol (R75). -/
  | mainSym (m : BitVec 10)
  /-- The length header of the match symbol just decoded (R76). -/
  | lenFooter (lh : BitVec 3)
  /-- The offset footer of an Aligned block with 3 or more extra bits: no selector (R78). -/
  | alignedSym
  /-- The start of an Uncompressed block's body: no selector (R79). -/
  | uncompBody
  /-- A raw byte of an Uncompressed block (R79). -/
  | rawByte (b : Byte)
  /-- The pad after an odd-length Uncompressed block: no selector (R79). -/
  | oddPad
  /-- A host access (46_host_interface.md). -/
  | host (a : Access)
  deriving DecidableEq, Repr

/-- Why a word selects no row. -/
inductive Reject where
  /-- A pretree symbol of 20..31: the pretree has 20 symbols (R73). -/
  | noSuchPretreeSymbol
  /-- A main symbol of slot 36 or more: no instance has it (R77). -/
  | noSuchSlot
  /-- A length header other than 7 announces no length footer (R76). -/
  | noLengthFooter
  deriving DecidableEq, Repr

/-- The container rows (R66, R87 to R89). -/
def decodeContainer (p : Params) (w : BitVec 48) : Instr :=
  if w.extractLsb' 24 24 ≠ p.magicWord then .contBadmagic (w.extractLsb' 24 24)
  else if w.getLsbD 7 then
    .contCompressed (w.extractLsb' 16 8) (w.extractLsb' 8 8) (w.extractLsb' 0 8)
  else .contRaw (w.extractLsb' 16 8) (w.extractLsb' 8 8) (w.extractLsb' 0 8)

/-- The block-type codes (R70). -/
def decodeBlock (t : BitVec 3) : Instr :=
  if t = 1 then .blkVerbatim
  else if t = 2 then .blkAligned
  else if t = 3 then .blkUncomp
  else .blkInvalid t

/-- The pretree symbols (R74). -/
def decodePre (z : BitVec 5) : Except Reject Instr :=
  if z.toNat ≤ 16 then .ok (.preDelta z)
  else if z = 17 then .ok .preZeroShort
  else if z = 18 then .ok .preZeroLong
  else if z = 19 then .ok .preRepeat
  else .error .noSuchPretreeSymbol

/-- The main symbols (R75): a literal, or `t = m - 256` split into slot and length header (90_conflicts.md C8). -/
def decodeMain (m : BitVec 10) : Except Reject Instr :=
  if m.toNat < 256 then .ok (.mainLiteral (m.extractLsb' 0 8))
  else
    match Instr.ofSlot ((m.toNat - 256) / 8) (m.extractLsb' 0 3) with
    | some i => .ok i
    | none => .error .noSuchSlot

/-- A write to CTRL (46_host_interface.md R154): SOFT_RESET wins, then START, else it is the IRQ_EN row. -/
def decodeCtrl (v : Word) : Instr :=
  if v.getLsbD 1 then .softReset v
  else if v.getLsbD 0 then .start v
  else .irqEn v

/-- A 32-bit aligned CSR write (46_host_interface.md R153). -/
def decodeCsrWrite (o : BitVec 12) (v : Word) : Instr :=
  if o = 0x004 then decodeCtrl v
  else if o = 0x008 then .w1c v
  else if o = 0x014 then .inLen v
  else .csrWrite o v

/-- A host access (46_host_interface.md, 20_memory.md R55 and R59). -/
def decodeHost : Access → Instr
  | .read addr size =>
    match regionOf addr with
    | .csr => if csrWidthOk addr size then .csrRead (addr.extractLsb' 0 12) else .busError (.read addr size)
    | .inAperture =>
      if apertureWidthOk addr.toNat size then .inRead (addr.extractLsb' 0 20) size else .busError (.read addr size)
    | .outAperture =>
      if apertureWidthOk addr.toNat size then .outRead (addr.extractLsb' 0 20) size else .busError (.read addr size)
    | .unmapped => .busError (.read addr size)
  | .write addr size v =>
    match regionOf addr with
    | .csr =>
      if csrWidthOk addr size then decodeCsrWrite (addr.extractLsb' 0 12) v else .busError (.write addr size v)
    | .inAperture =>
      if apertureWidthOk addr.toNat size then .inWrite (addr.extractLsb' 0 20) size v
      else .busError (.write addr size v)
    | .outAperture => .outWrite (addr.extractLsb' 0 20) size v
    | .unmapped => .busError (.write addr size v)

/-- The decoder: total, rejecting by name (30_encoding.md R82). -/
def decode (p : Params) : Fetched → Except Reject Instr
  | .container w => .ok (decodeContainer p w)
  | .rawPayload => .ok .rawCopy
  | .frame h0 => if h0 = 0xFF then .ok .frameExt else .ok (.frameStd h0)
  | .stream e8 => if e8 = 1 then .ok .e8On else .ok .e8Off
  | .block t => .ok (decodeBlock t)
  | .alignedLens => .ok .alignedLens
  | .pretree => .ok .pretree
  | .preSym z => decodePre z
  | .mainSym m => decodeMain m
  | .lenFooter lh => if lh = 7 then .ok .lenFooter else .error .noLengthFooter
  | .alignedSym => .ok .alignedSym
  | .uncompBody => .ok .uncompAlignR
  | .rawByte b => .ok (.rawByte b)
  | .oddPad => .ok .oddPad
  | .host a => .ok (decodeHost a)

/-- The main symbol of a match (R75): `256 + 8 * slot + lh`. -/
def encodeMatch (slot : Nat) (lh : BitVec 3) : Fetched :=
  .mainSym (BitVec.ofNat 10 (256 + 8 * slot + lh.toNat))

/-- The address of a CSR offset (20_memory.md R59). -/
def csrAddr (o : BitVec 12) : Word := (0#20 ++ o : BitVec 32)

/-- The address of an offset of the `IN` aperture (20_memory.md R59). -/
def inAddr (a : BitVec 20) : Word := (1#12 ++ a : BitVec 32)

/-- The address of an offset of the `OUT` aperture (20_memory.md R59). -/
def outAddr (a : BitVec 20) : Word := (2#12 ++ a : BitVec 32)

/-- The encoder: the word of an instruction, from the tables of 30_encoding.md and the address map. -/
def encode (p : Params) : Instr → Fetched
  | .contRaw platform version flags => .container (p.magicWord ++ platform ++ version ++ flags)
  | .contCompressed platform version flags => .container (p.magicWord ++ platform ++ version ++ flags)
  | .contBadmagic m => .container (m ++ 0#24)
  | .rawCopy => .rawPayload
  | .frameExt => .frame 0xFF
  | .frameStd h0 => .frame h0
  | .e8Off => .stream 0
  | .e8On => .stream 1
  | .blkVerbatim => .block 1
  | .blkAligned => .block 2
  | .blkUncomp => .block 3
  | .blkInvalid t => .block t
  | .alignedLens => .alignedLens
  | .pretree => .pretree
  | .preDelta z => .preSym z
  | .preZeroShort => .preSym 17
  | .preZeroLong => .preSym 18
  | .preRepeat => .preSym 19
  | .mainLiteral b => .mainSym (0#2 ++ b)
  | .matchR0 lh => encodeMatch 0 lh
  | .matchR1 lh => encodeMatch 1 lh
  | .matchR2 lh => encodeMatch 2 lh
  | .matchS3 lh => encodeMatch 3 lh
  | .matchS4 lh => encodeMatch 4 lh
  | .matchS5 lh => encodeMatch 5 lh
  | .matchS6 lh => encodeMatch 6 lh
  | .matchS7 lh => encodeMatch 7 lh
  | .matchS8 lh => encodeMatch 8 lh
  | .matchS9 lh => encodeMatch 9 lh
  | .matchS10 lh => encodeMatch 10 lh
  | .matchS11 lh => encodeMatch 11 lh
  | .matchS12 lh => encodeMatch 12 lh
  | .matchS13 lh => encodeMatch 13 lh
  | .matchS14 lh => encodeMatch 14 lh
  | .matchS15 lh => encodeMatch 15 lh
  | .matchS16 lh => encodeMatch 16 lh
  | .matchS17 lh => encodeMatch 17 lh
  | .matchS18 lh => encodeMatch 18 lh
  | .matchS19 lh => encodeMatch 19 lh
  | .matchS20 lh => encodeMatch 20 lh
  | .matchS21 lh => encodeMatch 21 lh
  | .matchS22 lh => encodeMatch 22 lh
  | .matchS23 lh => encodeMatch 23 lh
  | .matchS24 lh => encodeMatch 24 lh
  | .matchS25 lh => encodeMatch 25 lh
  | .matchS26 lh => encodeMatch 26 lh
  | .matchS27 lh => encodeMatch 27 lh
  | .matchS28 lh => encodeMatch 28 lh
  | .matchS29 lh => encodeMatch 29 lh
  | .matchS30 lh => encodeMatch 30 lh
  | .matchS31 lh => encodeMatch 31 lh
  | .matchS32 lh => encodeMatch 32 lh
  | .matchS33 lh => encodeMatch 33 lh
  | .matchS34 lh => encodeMatch 34 lh
  | .matchS35 lh => encodeMatch 35 lh
  | .lenFooter => .lenFooter 7
  | .alignedSym => .alignedSym
  | .uncompAlignR => .uncompBody
  | .rawByte b => .rawByte b
  | .oddPad => .oddPad
  | .csrRead o => .host (.read (csrAddr o) .b32)
  | .csrWrite o v => .host (.write (csrAddr o) .b32 v)
  | .start v => .host (.write (csrAddr 0x004) .b32 v)
  | .softReset v => .host (.write (csrAddr 0x004) .b32 v)
  | .irqEn v => .host (.write (csrAddr 0x004) .b32 v)
  | .w1c v => .host (.write (csrAddr 0x008) .b32 v)
  | .inLen v => .host (.write (csrAddr 0x014) .b32 v)
  | .inWrite a size v => .host (.write (inAddr a) size v)
  | .inRead a size => .host (.read (inAddr a) size)
  | .outRead a size => .host (.read (outAddr a) size)
  | .outWrite a size v => .host (.write (outAddr a) size v)
  | .busError acc => .host acc

/-- The decode context of a word of the opcode table whose 8 bits are `w`. The table gives words of several contexts the
same bits (the byte 0 is E8_OFF, BLK_INVALID and PRE_DELTA 0); the bits alone do not tell them apart, the state does
(R81). This is the reading the host's question gets: log entry 14. -/
def fetchedOfByte (w : Nat) : Fetched :=
  if w = 0xFF then .frame 0xFF
  else if w ≤ 1 then .stream (BitVec.ofNat 1 w)
  else if w ≤ 6 then .block (BitVec.ofNat 3 w)
  else if w = 7 then .lenFooter 7
  else if w ≤ 19 then .preSym (BitVec.ofNat 5 w)
  else .frame (BitVec.ofNat 8 w)

/-- The host access of a word that gives only the address: a write of 0 where the address is a register whose writes are
rows of their own, a read elsewhere (log entry 14). -/
def accessOfAddress (addr : Word) : Access :=
  if regionOf addr = .csr ∧ actingCsr (addr.extractLsb' 0 12) then .write addr .b32 0
  else if addr.toNat % 4 = 0 then .read addr .b32
  else .read addr .b8

/-- The word of `nbits` bits in its decode context, by the widths of spec/opcode_table.json's formats. -/
def fetchedOfTableWord (nbits w : Nat) : Fetched :=
  if nbits = 0 then .rawPayload
  else if nbits ≤ 8 then fetchedOfByte w
  else if nbits ≤ 16 then .mainSym (BitVec.ofNat 10 w)
  else if nbits ≤ 24 then
    (if w % 32 = 0 then .alignedLens else .preSym (BitVec.ofNat 5 w))
  else if nbits ≤ 32 then .host (accessOfAddress (BitVec.ofNat 32 w))
  else if nbits ≤ 48 then .container (BitVec.ofNat 48 w)
  else if nbits ≤ 80 then .pretree
  else .uncompBody

/-- The instruction the decoder reads from a word of spec/opcode_table.json, on the default instance. -/
def decodeTableWord (nbits w : Nat) : Option Instr :=
  match decode Params.default (fetchedOfTableWord nbits w) with
  | .ok i => some i
  | .error _ => none

end Sys2Proof
end

