-- ==== Sys2Proof/Machine/State.lean ====
section
/-! DEFINITION. The state of TLZX as plain data (10_state.md R20 to R47), the reasons a step can stop, and the state
after reset. -/

namespace Sys2Proof.Machine

/-- A memory of byte cells (20_memory.md R48): the written cells, offsets strictly rising. An unlisted cell is
*unwritten*; it holds no byte, so no entry equals what an unlisted cell reads as (log entry 8). -/
abbrev Memory := List Host.Cell

/-- A bit of the bit reader's accumulator: its value, and whether it came from inside the frame's data
(41_bit_reader.md R91). -/
structure QBit where
  bit : Bool
  real : Bool
  deriving DecidableEq, Repr

/-- The engine states `S.ds` (10_state.md R39). -/
inductive DState where
  | idle
  | container
  | rawCopy
  | frameHdr
  | streamHdr
  | blockHdr
  | decVerbatim
  | decAligned
  | decUncomp
  | done
  | failed
  deriving DecidableEq, Repr

/-- The session variables (10_state.md R38). Offsets, counts and sizes are naturals (00_scope.md R8, log entry 20). -/
structure Session where
  /-- `S.ds` (R39). -/
  ds : DState
  /-- `S.compressed`: container flags bit 7. -/
  compressed : Bool
  /-- `S.dec_size`: declared decompressed size. -/
  decSize : Nat
  /-- `S.produced`: output bytes produced so far. -/
  produced : Nat
  /-- `S.in_pos`: `IN` offset of the next frame header (R42). -/
  inPos : Nat
  /-- `S.fhdr_pos`: `IN` offset of the current frame header. -/
  fhdrPos : Nat
  /-- `S.frame_base`: `IN` offset of the current frame's first data byte. -/
  frameBase : Nat
  /-- `S.frame_len`: the current frame's `block_size`. -/
  frameLen : Nat
  /-- `S.frame_size`: the current frame's `frame_size`. -/
  frameSize : Nat
  /-- `S.frame_rem`: output bytes the current frame still owes. -/
  frameRem : Nat
  /-- `S.frame_count`: frames accepted. -/
  frameCount : Nat
  /-- `S.rd.c`: the bit reader's byte cursor, relative to `frameBase` (41_bit_reader.md R91). -/
  rdC : Nat
  /-- `S.rd.Q`: the bit reader's accumulator, first element next to be consumed (41_bit_reader.md R91). -/
  rdQ : List QBit
  /-- `S.header_read`: the stream header has been read. -/
  headerRead : Bool
  /-- `S.e8_present`: the stream header's E8 bit. -/
  e8Present : Bool
  /-- `S.e8_size`: the E8 file-size marker. -/
  e8Size : Word
  /-- `S.block_type`: raw type of the current block, 0 before the first. -/
  blockType : BitVec 3
  /-- `S.block_len`: the current block's declared length. -/
  blockLen : Nat
  /-- `S.block_rem`: bytes still to produce in the current block. -/
  blockRem : Nat
  /-- `S.R[0]` (R41). -/
  r0 : Word
  /-- `S.R[1]` (R41). -/
  r1 : Word
  /-- `S.R[2]` (R41). -/
  r2 : Word
  /-- `S.main_len`: maintree code lengths (R44). -/
  mainLen : List Nat
  /-- `S.len_len`: length-tree code lengths (R44). -/
  lenLen : List Nat
  /-- `S.al_len`: aligned-tree code lengths (R44). -/
  alLen : List Nat
  /-- `S.pre_len`: pretree code lengths (R44). -/
  preLen : List Nat
  /-- `S.win`: the window (R45). -/
  win : Memory
  /-- `S.wpos`: window write position (R45). -/
  wpos : Nat
  /-- `S.written`: window bytes written in this session, saturating at `W` (R45). -/
  written : Nat
  deriving DecidableEq, Repr

/-- The three tree-reading passes of a Verbatim or Aligned block header (30_encoding.md R72). -/
inductive Pass where
  | mainLow
  | mainHigh
  | lengths
  deriving DecidableEq, Repr

/-- A block header whose body is being read: its type and declared length are written to the session only by the common
tail of 43_lzx_blocks.md R115. -/
structure BlockHdr where
  type : BitVec 3
  len : Nat
  deriving DecidableEq, Repr

/-- The element an engine step in progress awaits, with what the step has read so far (log entry 3). -/
inductive Ctx where
  /-- The step's first element has been fetched and not yet run. -/
  | started
  /-- An Aligned block header awaits its aligned-tree lengths (43_lzx_blocks.md R118). -/
  | alignedLens (h : BlockHdr)
  /-- A pass awaits its pretree (43_lzx_blocks.md R123). -/
  | pretree (h : BlockHdr) (p : Pass)
  /-- A pass awaits the pretree symbol for entry `x` (43_lzx_blocks.md R123). -/
  | preSym (h : BlockHdr) (p : Pass) (x : Nat)
  /-- A match of this slot, length header 7, awaits its length footer (44_lzx_symbols.md R134). -/
  | lenFooter (slot : Nat)
  /-- A match of this slot and length awaits its aligned offset footer (44_lzx_symbols.md R139). -/
  | alignedSym (slot len : Nat)
  /-- An Uncompressed block header awaits its pad and R words (43_lzx_blocks.md R119). -/
  | uncompAlignR (h : BlockHdr)
  /-- An odd-length Uncompressed block's end awaits the pad byte (44_lzx_symbols.md R131). -/
  | oddPad
  deriving DecidableEq, Repr

/-- An engine step in progress: the session as last committed, which a fault goes back to (60_exceptions.md R175) and
the host sees (10_state.md R40), and the element awaited. -/
structure Pending where
  base : Session
  ctx : Ctx
  deriving DecidableEq, Repr

/-- One turn of the schedule: a host access, a turn of the engine, or a pulse of the reset input `rst`
(20_memory.md R61, 70_reset_and_hazards.md R187; log entries 4 and 10). -/
inductive Turn where
  | host (a : Access)
  | engine
  | rst
  deriving DecidableEq, Repr

/-- The response to a host access (46_host_interface.md R166, log entry 11). -/
inductive Resp where
  /-- No access has been made. -/
  | none
  /-- A write was accepted by the bus. -/
  | ok
  /-- A read returned this datum, in the low bits for an 8-bit read. -/
  | data (v : Word)
  /-- A bus error. -/
  | error
  deriving DecidableEq, Repr

/-- The faults of a session, one per row of 60_exceptions.md R171. -/
inductive SessionError where
  | badMagic
  | outCapacity
  | frameOverTotal
  | offsetZero
  | offsetBeyondHistory
  | offsetBeyondWindow
  | headerShort
  | frameHeaderShort
  | frameZeroSize
  | frameDataShort
  | bitsExhausted
  | bytesExhausted
  | matchOverrun
  | pretreeInvalid
  | maintreeInvalid
  | lentreeInvalid
  | alignedInvalid
  | runOverflow
  | repeatSymbolInvalid
  | pretreeEmpty
  | maintreeEmpty
  | lentreeEmpty
  | alignedEmpty
  | blockType (t : BitVec 3)
  deriving DecidableEq, Repr

/-- The whole state of one TLZX instance and of the host side of its bus. -/
structure State where
  /-- The instance parameters, constant (00_scope.md R6; the CSRs CONFIG, IN_CAP, OUT_CAP, MAGIC_CFG; log entry 1). -/
  cfg : Params
  /-- The session variables, with the uncommitted writes of an engine step in progress. -/
  sess : Session
  /-- The engine step in progress, if one is (log entry 3). -/
  pend : Option Pending
  /-- The `IN` memory (20_memory.md R49). -/
  inp : Memory
  /-- The `OUT` memory (20_memory.md R50). -/
  out : Memory
  /-- `CTRL.IRQ_EN` (10_state.md R22). -/
  irqEn : Bool
  /-- `STATUS.BUSY` (10_state.md R23). -/
  busy : Bool
  /-- `STATUS.DONE` (10_state.md R23). -/
  done : Bool
  /-- `STATUS.FAILED` (10_state.md R23). -/
  failed : Bool
  /-- `STATUS.E8_PRESENT` (10_state.md R23). -/
  e8Present : Bool
  /-- `STATUS.COMPRESSED` (10_state.md R23). -/
  compressed : Bool
  /-- `STATUS.CMD_IGNORED` (10_state.md R23). -/
  cmdIgnored : Bool
  /-- `ERR.CAUSE` (10_state.md R24). -/
  errCause : BitVec 4
  /-- `ERR.DETAIL` (10_state.md R24). -/
  errDetail : Byte
  /-- `ERR_POS` (10_state.md R25). -/
  errPos : Nat
  /-- `IN_LEN` (10_state.md R26). -/
  inLen : Nat
  /-- `OUT_LEN` as it reads while BUSY = 0 (10_state.md R27, log entry 18). -/
  outLen : Nat
  /-- `HDR_INFO.PLATFORM` (10_state.md R28). -/
  hdrPlatform : Byte
  /-- `HDR_INFO.VERSION` (10_state.md R28). -/
  hdrVersion : Byte
  /-- `HDR_INFO.FLAGS` (10_state.md R28). -/
  hdrFlags : Byte
  /-- `HDR_FILE_SIZE` (10_state.md R29). -/
  hdrFileSize : Word
  /-- `HDR_DEC_SIZE` (10_state.md R30). -/
  hdrDecSize : Word
  /-- `E8_FILE_SIZE` (10_state.md R31). -/
  e8FileSize : Word
  /-- The turns to come: the interleaving that 20_memory.md R61 leaves open (log entry 4). -/
  sched : List Turn
  /-- The response to the last host access (46_host_interface.md R166). -/
  resp : Resp
  /-- The sticky host-side mark `bus_error`, never cleared (60_exceptions.md R179). -/
  busErr : Bool
  /-- How many draws have been made: the index of the next free value (20_memory.md R49, log entry 6). -/
  draws : Nat
  deriving DecidableEq, Repr

/-- Why the machine stops with a fault. A session fault of the spec is no such stop: it is the state FAILED. -/
inductive Fault where
  /-- Raised by the engine's turn when BUSY = 1 and no rule family runs in the state: `S.ds` is IDLE, DONE or FAILED
  (10_state.md R39, "none"), or the step in progress awaits no element. No run reaches such a state. Safe: the
  model stops where the spec gives no rule (log entry 9). -/
  | noRule
  deriving DecidableEq, Repr

/-- Why a step has no meaning. -/
inductive Refusal where
  /-- Raised by `exec` for an instruction without a meaning; no instruction of this model is one. Safe. -/
  | notModelled (mnemonic : String)
  /-- Raised by `step` on an instance that does not exist (93_implementation_defined.md I34). Safe. -/
  | noSuchInstance
  /-- Raised by `peek(n)` with fewer than n bits buffered; "a model reaching" it "must refuse the step"
  (70_reset_and_hazards.md R194). No rule reaches it. Safe. -/
  | peekUnderrun
  /-- Raised by a symbol decode from a tree that is neither complete nor empty and has no symbol for the bits read;
  `build` excludes it (42_huffman.md R106, R108). No run reaches it. Safe (log entry 9). -/
  | treeNotBuilt
  /-- Raised by the meaning of an element that continues an engine step when the state awaits another element
  (30_encoding.md R81). `step` never runs it so. Safe (log entry 9). -/
  | wrongContext
  /-- Raised by a frame start that must resume a block of no valid type (45_frame_demux.md R148). No run reaches it.
  Safe (log entry 9). -/
  | noBlockType
  /-- Raised by `step` for a fetched word that selects no row, or a row the instance does not have. No run reaches it.
  Safe (log entry 9). -/
  | undecodable
  deriving DecidableEq, Repr

/-- The session variables after reset: R0..R2 = 1, the mirrored ones 0 (10_state.md R47); the others are "unspecified"
there, and hold here what log entry 7 names. -/
def Session.reset (p : Params) : Session where
  ds := .idle
  compressed := false
  decSize := 0
  produced := 0
  inPos := 0
  fhdrPos := 0
  frameBase := 0
  frameLen := 0
  frameSize := 0
  frameRem := 0
  frameCount := 0
  rdC := 0
  rdQ := []
  headerRead := false
  e8Present := false
  e8Size := 0
  blockType := 0
  blockLen := 0
  blockRem := 0
  r0 := 1
  r1 := 1
  r2 := 1
  mainLen := List.replicate p.mainElements 0
  lenLen := List.replicate Config.lengthSymbols 0
  alLen := List.replicate Config.alignedSymbols 0
  preLen := List.replicate Config.pretreeSymbols 0
  win := []
  wpos := 0
  written := 0

/-- An instance right after a hardware reset (70_reset_and_hazards.md R187, 10_state.md R47). -/
def State.resetOf (p : Params) : State where
  cfg := p
  sess := Session.reset p
  pend := none
  inp := []
  out := []
  irqEn := false
  busy := false
  done := false
  failed := false
  e8Present := false
  compressed := false
  cmdIgnored := false
  errCause := 0
  errDetail := 0
  errPos := 0
  inLen := 0
  outLen := 0
  hdrPlatform := 0
  hdrVersion := 0
  hdrFlags := 0
  hdrFileSize := 0
  hdrDecSize := 0
  e8FileSize := 0
  sched := []
  resp := .none
  busErr := false
  draws := 0

/-- The default instance right after a hardware reset (70_reset_and_hazards.md R187). -/
def State.reset : State := State.resetOf Params.default

end Sys2Proof.Machine
end

