-- ==== Sys2Proof/Machine/Ops.lean ====
section
/-! DEFINITION. The named operations over memory and registers: cells and draws, the result of a rule's pseudocode, the
frame of an engine element (begin, await, commit), the taking of a session fault (60_exceptions.md R174), session
start and end, and the resets. -/

namespace Sys2Proof.Machine

/-! ## Memory -/

/-- The byte a cell holds, or none if it is *unwritten* (20_memory.md R49). -/
def Memory.get? : Memory → Nat → Option Byte
  | [], _ => none
  | (a', b') :: m, a => if a = a' then some b' else Memory.get? m a

/-- Writes one cell, keeping the offsets strictly rising (20_memory.md R12 primitives). -/
def Memory.set : Memory → Nat → Byte → Memory
  | [], a, b => [(a, b)]
  | (a', b') :: m, a, b =>
    if a < a' then (a, b) :: (a', b') :: m
    else if a = a' then (a, b) :: m
    else (a', b') :: Memory.set m a b

/-- The canonical form: offsets strictly rising. -/
def Memory.wf : Memory → Bool
  | [] => true
  | [_] => true
  | (a, _) :: (a', b') :: m => decide (a < a') && Memory.wf ((a', b') :: m)

/-- Every listed offset is below `n`. -/
def Memory.below (n : Nat) (m : Memory) : Bool := m.all fun c => decide (c.1 < n)

/-- A 32-bit little-endian value of four bytes (20_memory.md R52). -/
def le32 (b0 b1 b2 b3 : Byte) : Word := (b3 ++ b2 ++ b1 ++ b0 : BitVec 32)

/-! ## Field updates -/

namespace State

/-- Replaces the session variables. -/
def setSess (s : State) (t : Session) : State := { s with sess := t }

/-- Replaces the record of the engine step in progress. -/
def setPend (s : State) (p : Option Pending) : State := { s with pend := p }

/-- Sets the bit reader's cursor and accumulator (41_bit_reader.md R91). -/
def setReader (s : State) (c : Nat) (q : List QBit) : State :=
  { s with sess := { s.sess with rdC := c, rdQ := q } }

/-- `goto X` (00_scope.md R13). -/
def goto (s : State) (d : DState) : State :=
  { s with sess := { s.sess with ds := d } }

/-- Sets the three repeated-offset registers (10_state.md R41). -/
def setR (s : State) (r0 r1 r2 : Word) : State :=
  { s with sess := { s.sess with r0 := r0, r1 := r1, r2 := r2 } }

/-- Records the response to a host access (46_host_interface.md R166). -/
def respond (s : State) (r : Resp) : State := { s with resp := r }

/-- Counts one draw (20_memory.md R49). -/
def countDraw (s : State) : State := { s with draws := s.draws + 1 }

/-- Writes one cell of `OUT` (20_memory.md R50). -/
def setOut (s : State) (a : Nat) (b : Byte) : State := { s with out := s.out.set a b }

/-- The session as last committed: what the host sees (10_state.md R40), and what a fault goes back to
(60_exceptions.md R175). -/
def seen (s : State) : Session :=
  match s.pend with
  | some p => p.base
  | none => s.sess

/-- Reads a cell of a memory: its byte, or a draw if it is *unwritten* (20_memory.md R49). -/
def readCell (s : State) (m : Memory) (a : Nat) : Byte × State :=
  match m.get? a with
  | some b => (b, s)
  | none => (Config.draw s.draws, s.countDraw)

/-- `MemRead(IN, a, 1)` (00_scope.md R12). -/
def readIn (s : State) (a : Nat) : Byte × State := s.readCell s.inp a

/-- `MemRead(IN, a, 4)`, little-endian: LE32 of 40_container.md (20_memory.md R52). -/
def readLe32 (s : State) (a : Nat) : Word × State :=
  let b0 := s.readIn a
  let b1 := b0.2.readIn (a + 1)
  let b2 := b1.2.readIn (a + 2)
  let b3 := b2.2.readIn (a + 3)
  (le32 b0.1 b1.1 b2.1 b3.1, b3.2)

end State

/-! ## The result of a piece of pseudocode -/

/-- What a piece of an element's pseudocode gives: a value and the state with its writes so far; a session fault, of
which nothing but the number of draws made survives (00_scope.md R13); or a refusal of the model. -/
inductive Res (α : Type) where
  | ok (a : α) (s : State)
  | raise (e : SessionError) (draws : Nat)
  | refuse (r : Refusal)

/-- Sequencing: the pseudocode that follows runs only if the first part neither faulted nor was refused. -/
def Res.bind {α β : Type} (x : Res α) (f : α → State → Res β) : Res β :=
  match x with
  | .ok a s => f a s
  | .raise e d => .raise e d
  | .refuse r => .refuse r

/-! ## Taking a session fault -/

/-- `ERR.CAUSE` of a fault (60_exceptions.md R170, R171). -/
def SessionError.cause : SessionError → BitVec 4
  | .badMagic => 1
  | .outCapacity => 1
  | .frameOverTotal => 1
  | .offsetZero => 1
  | .offsetBeyondHistory => 1
  | .offsetBeyondWindow => 1
  | .headerShort => 2
  | .frameHeaderShort => 2
  | .frameZeroSize => 2
  | .frameDataShort => 2
  | .bitsExhausted => 2
  | .bytesExhausted => 2
  | .matchOverrun => 2
  | .pretreeInvalid => 3
  | .maintreeInvalid => 3
  | .lentreeInvalid => 3
  | .alignedInvalid => 3
  | .runOverflow => 3
  | .repeatSymbolInvalid => 3
  | .pretreeEmpty => 3
  | .maintreeEmpty => 3
  | .lentreeEmpty => 3
  | .alignedEmpty => 3
  | .blockType _ => 4

/-- `ERR.DETAIL` of a fault (60_exceptions.md R171). -/
def SessionError.detail : SessionError → Byte
  | .badMagic => 0x01
  | .outCapacity => 0x02
  | .frameOverTotal => 0x03
  | .offsetZero => 0x04
  | .offsetBeyondHistory => 0x05
  | .offsetBeyondWindow => 0x06
  | .headerShort => 0x01
  | .frameHeaderShort => 0x02
  | .frameZeroSize => 0x03
  | .frameDataShort => 0x04
  | .bitsExhausted => 0x05
  | .bytesExhausted => 0x06
  | .matchOverrun => 0x07
  | .pretreeInvalid => 0x01
  | .maintreeInvalid => 0x02
  | .lentreeInvalid => 0x03
  | .alignedInvalid => 0x04
  | .runOverflow => 0x05
  | .repeatSymbolInvalid => 0x06
  | .pretreeEmpty => 0x11
  | .maintreeEmpty => 0x12
  | .lentreeEmpty => 0x13
  | .alignedEmpty => 0x14
  | .blockType t => (0#5 ++ t : BitVec 8)

/-- `ERR_POS` on entry to FAILED, from the session as committed (60_exceptions.md R174). -/
def errPosOf (t : Session) : Nat :=
  match t.ds with
  | .container => 0
  | .rawCopy => 0
  | .frameHdr => t.inPos
  | _ => t.fhdrPos

/-- Enter FAILED (60_exceptions.md R174): the session goes back to what was committed before the step (R175), ERR and
ERR_POS record the fault, OUT_LEN becomes 0, BUSY falls and FAILED rises. -/
def enterFailed (e : SessionError) (s : State) : State :=
  { s with
    sess := { s.seen with ds := .failed }
    pend := none
    errCause := e.cause
    errDetail := e.detail
    errPos := errPosOf s.seen
    outLen := 0
    busy := false
    failed := true }

/-- `raise Fault(e)` in an element that began in `s` and made draws up to `d`: every write of the step is discarded,
the draws stay made (a later read is a fresh draw, 20_memory.md R49). -/
def takeFault (e : SessionError) (d : Nat) (s : State) : State :=
  enterFailed e { s with draws := d }

/-! ## The frame of an engine element -/

/-- Opens the engine step, if it is not open, on the session as it stands (10_state.md R40). -/
def begin (s : State) : State :=
  match s.pend with
  | some _ => s
  | none => s.setPend (some ⟨s.sess, .started⟩)

/-- The step goes on with the element that `c` awaits. -/
def await (c : Ctx) (s : State) : State :=
  s.setPend (some ⟨s.seen, c⟩)

/-- The step ends and commits all its writes (10_state.md R40). -/
def commit (s : State) : State := s.setPend none

/-- What the step in progress awaits. -/
def awaited (s : State) : Ctx :=
  match s.pend with
  | some p => p.ctx
  | none => .started

/-- Runs the pseudocode of an engine element: a fault it raises is taken (60_exceptions.md R174). -/
def runElement (s : State) (f : State → Res Unit) : Host.Outcome State Fault Refusal :=
  match f (begin s) with
  | .ok _ s' => .next s'
  | .raise e d => .next (takeFault e d (begin s))
  | .refuse r => .refused r

/-! ## Session start and end, resets -/

/-- `end session Done` (45_frame_demux.md R145). -/
def endDone (s : State) : State :=
  { s with
    sess := { s.sess with ds := .done }
    pend := none
    outLen := s.sess.produced
    busy := false
    done := true }

/-- The session variables START creates (70_reset_and_hazards.md R188). -/
def freshSession (p : Params) : Session where
  ds := .container
  compressed := false
  decSize := 0
  produced := 0
  inPos := 0
  fhdrPos := 0
  frameBase := 0
  frameLen := 0
  frameSize := 0
  frameRem := 0
  frameCount := 0
  rdC := 0
  rdQ := []
  headerRead := false
  e8Present := false
  e8Size := 0
  blockType := 0
  blockLen := 0
  blockRem := 0
  r0 := 1
  r1 := 1
  r2 := 1
  mainLen := List.replicate p.mainElements 0
  lenLen := List.replicate Config.lengthSymbols 0
  alLen := List.replicate Config.alignedSymbols 0
  preLen := List.replicate Config.pretreeSymbols 0
  win := []
  wpos := 0
  written := 0

/-- START accepted (46_host_interface.md R155): the session initialisation of 70_reset_and_hazards.md R188. `IN`,
`IN_LEN`, IRQ_EN, CMD_IGNORED and the contents of `OUT` are unchanged. -/
def startSession (s : State) : State :=
  { s with
    sess := freshSession s.cfg
    pend := none
    busy := true
    done := false
    failed := false
    e8Present := false
    compressed := false
    errCause := 0
    errDetail := 0
    errPos := 0
    outLen := 0
    hdrPlatform := 0
    hdrVersion := 0
    hdrFlags := 0
    hdrFileSize := 0
    hdrDecSize := 0
    e8FileSize := 0 }

/-- The START bit of a CTRL write (46_host_interface.md R155): refused while BUSY (R160). -/
def startBit (s : State) : State :=
  if s.busy then { s with cmdIgnored := true } else startSession s

/-- A hardware reset (70_reset_and_hazards.md R187): every register at its reset value, every `IN` byte *unwritten*. The
parameters are constants; the schedule, the last response, the sticky `bus_error` mark and the count of draws are
the host side's and the model's, and stay (log entry 10). -/
def hardReset (s : State) : State :=
  { State.resetOf s.cfg with
    sched := s.sched, resp := s.resp, busErr := s.busErr, draws := s.draws }

/-- SOFT_RESET (46_host_interface.md R156): the hardware reset, except that `IN` and `OUT` keep their contents. -/
def softResetState (s : State) : State :=
  { hardReset s with inp := s.inp, out := s.out }

/-! ## Host side -/

/-- A bus error (46_host_interface.md R166, 60_exceptions.md R179): an error response and the sticky mark, no change of
TLZX. -/
def busErrorResp (s : State) : State := { s with resp := .error, busErr := true }

end Sys2Proof.Machine
end

