-- ==== Sys2Proof/Machine/Operands.lean ====
section
/-! DEFINITION. Every operand form: the bit reader (41_bit_reader.md), the Huffman trees and symbol decode
(42_huffman.md), the position-slot table (30_encoding.md R77), byte order (20_memory.md R52). -/

namespace Sys2Proof.Machine

/-! ## Byte and bit order -/

/-- The 16 bits of a fetched word in consumption order, most significant first (20_memory.md R53). -/
def wordBits (w : BitVec 16) (real : Bool) : List QBit :=
  (List.range 16).map fun i => ⟨w.getLsbD (15 - i), real⟩

/-- `val` of a bit list, most significant first (00_scope.md R10). -/
def bitsVal (q : List QBit) : Nat :=
  q.foldl (fun acc x => 2 * acc + (if x.bit then 1 else 0)) 0

/-- A 16-bit field of a frame header, high byte first (30_encoding.md R67). -/
def be16 (hi lo : Byte) : Nat := hi.toNat * 256 + lo.toNat

/-! ## The bit reader -/

/-- `reader_init(base, L)` (41_bit_reader.md R92). -/
def readerInit (base len : Nat) (s : State) : State :=
  { s with sess := { s.sess with frameBase := base, frameLen := len, rdC := 0, rdQ := [] } }

/-- A byte of the frame's data for `fetch`: 0 at or beyond the frame's end, where `IN` is not read
(41_bit_reader.md R93). -/
def frameByte (i : Nat) (s : State) : Byte × State :=
  if i < s.sess.frameLen then s.readIn (s.sess.frameBase + i) else (0, s)

/-- `fetch()` (41_bit_reader.md R93). The cursor has no bound: behind a frame of 65535 bytes a virtual word takes it to
65538, over the 0..65537 of 10_state.md R38, and the model follows R93 (DEDUCED, log entry 20). -/
def fetchWord (s : State) : State :=
  let c := s.sess.rdC
  let lo := frameByte c s
  let hi := frameByte (c + 1) lo.2
  hi.2.setReader (c + 2) (s.sess.rdQ ++ wordBits (hi.1 ++ lo.1 : BitVec 16) (decide (c < s.sess.frameLen)))

/-- The loop of `ensure`: at most `fuel` fetches, each of 16 bits, so `fuel = n` is enough. -/
def ensureLoop : Nat → Nat → State → State
  | 0, _, s => s
  | fuel + 1, n, s => if s.sess.rdQ.length < n then ensureLoop fuel n (fetchWord s) else s

/-- `ensure(n)` (41_bit_reader.md R94). It never faults. -/
def ensure (n : Nat) (s : State) : State := ensureLoop n n s

/-- `peek(n)` (41_bit_reader.md R95); with fewer than n bits buffered the model refuses (70_reset_and_hazards.md R194). -/
def peek (n : Nat) (s : State) : Res Nat :=
  if s.sess.rdQ.length < n then .refuse .peekUnderrun
  else .ok (bitsVal (s.sess.rdQ.take n)) s

/-- `remove(n)` (41_bit_reader.md R96). -/
def remove (n : Nat) (s : State) : Res Unit :=
  if (s.sess.rdQ.take n).all (·.real) then .ok () (s.setReader s.sess.rdC (s.sess.rdQ.drop n))
  else .raise .bitsExhausted s.draws

/-- `readbits(n)` (41_bit_reader.md R97). -/
def readBits (n : Nat) (s : State) : Res Nat :=
  if n = 0 then .ok 0 s
  else (peek n (ensure n s)).bind fun v s => (remove n s).bind fun _ s => .ok v s

/-- `k` consecutive fields of `n` bits each (43_lzx_blocks.md R121, R124). -/
def readFields (n : Nat) : Nat → State → Res (List Nat)
  | 0, s => .ok [] s
  | k + 1, s => (readBits n s).bind fun v s => (readFields n k s).bind fun vs s => .ok (v :: vs) s

/-- `align16()` (41_bit_reader.md R98): the cursor keeps its parity. -/
def align16 (s : State) : State :=
  let e := ensure 16 s
  e.setReader (if 16 < e.sess.rdQ.length then e.sess.rdC - 2 else e.sess.rdC) []

/-- `readbyte()` (41_bit_reader.md R99). -/
def readByte (s : State) : Res Byte :=
  if s.sess.frameLen ≤ s.sess.rdC then .raise .bytesExhausted s.draws
  else
    let b := s.readIn (s.sess.frameBase + s.sess.rdC)
    .ok b.1 (b.2.setReader (s.sess.rdC + 1) b.2.sess.rdQ)

/-- Four raw bytes as a little-endian 32-bit word (43_lzx_blocks.md R119). -/
def readWord32 (s : State) : Res Word :=
  (readByte s).bind fun b0 s => (readByte s).bind fun b1 s =>
    (readByte s).bind fun b2 s => (readByte s).bind fun b3 s => .ok (le32 b0 b1 b2 b3) s

/-- `reinit()` (41_bit_reader.md R100): the accumulator is emptied, and with UNCOMP_ODD_PAD = 1 the next word is fetched at
an even cursor. Behind a block that lies in one frame the cursor is even already and stays, as R100 says; behind one that
a frame's end split it can be odd, and the model then goes on to the even cursor of R100, 20_memory.md R54 and the ruling
C10 of 90_conflicts.md (DEDUCED, log entry 21). -/
def reinit (s : State) : State :=
  s.setReader (if s.cfg.oddPad then s.sess.rdC + s.sess.rdC % 2 else s.sess.rdC) []

/-! ## Huffman trees -/

/-- The four trees (42_huffman.md R104). -/
inductive Tree where
  | pre
  | main
  | len
  | aligned
  deriving DecidableEq, Repr

/-- The code-length array of a tree (42_huffman.md R104). -/
def Tree.lens (t : Tree) (s : State) : List Nat :=
  match t with
  | .pre => s.sess.preLen
  | .main => s.sess.mainLen
  | .len => s.sess.lenLen
  | .aligned => s.sess.alLen

/-- The "invalid DETAIL" of a tree (42_huffman.md R104). -/
def Tree.invalid : Tree → SessionError
  | .pre => .pretreeInvalid
  | .main => .maintreeInvalid
  | .len => .lentreeInvalid
  | .aligned => .alignedInvalid

/-- The "empty-decode DETAIL" of a tree (42_huffman.md R104). -/
def Tree.empty : Tree → SessionError
  | .pre => .pretreeEmpty
  | .main => .maintreeEmpty
  | .len => .lentreeEmpty
  | .aligned => .alignedEmpty

/-- The Kraft sum `K` of a length array (42_huffman.md R105). -/
def kraft : List Nat → Nat
  | [] => 0
  | l :: ls => (if l = 0 then 0 else 2 ^ (16 - l)) + kraft ls

/-- `build(T)`: a tree that is neither complete nor empty is a fault (42_huffman.md R106). -/
def build (t : Tree) (s : State) : Res Unit :=
  if kraft (t.lens s) = 65536 ∨ kraft (t.lens s) = 0 then .ok () s
  else .raise t.invalid s.draws

/-- What one row of R107's table gives for a 16-bit prefix: the symbol whose interval holds it, or the start of the next
free interval. -/
inductive Scan where
  | hit (sym : Nat)
  | past (pos : Nat)
  deriving DecidableEq, Repr

/-- The inner loop of 42_huffman.md R107 for the prefix `v`: the symbols of length `l`, ascending from index `i`, take
consecutive intervals from `pos`. -/
def scanSymbols (l v : Nat) : List Nat → Nat → Nat → Scan
  | [], _, pos => .past pos
  | x :: xs, i, pos =>
    if x = l then
      if v < pos + 2 ^ (16 - l) then .hit i else scanSymbols l v xs (i + 1) (pos + 2 ^ (16 - l))
    else scanSymbols l v xs (i + 1) pos

/-- The outer loop of 42_huffman.md R107: code lengths in ascending order. -/
def scanLengths (lens : List Nat) (v : Nat) : List Nat → Nat → Option (Nat × Nat)
  | [], _ => none
  | l :: ls, pos =>
    match scanSymbols l v lens 0 pos with
    | .hit i => some (i, l)
    | .past pos' => scanLengths lens v ls pos'

/-- The symbol whose canonical code is a prefix of the 16 bits `v`, with its length (42_huffman.md R107, R108). -/
def findSymbol (lens : List Nat) (v : Nat) : Option (Nat × Nat) :=
  scanLengths lens v [1, 2, 3, 4, 5, 6, 7, 8, 9, 10, 11, 12, 13, 14, 15, 16] 0

/-- `decode(T)` (42_huffman.md R108, R109). -/
def decodeSymbol (t : Tree) (s : State) : Res Nat :=
  if kraft (t.lens s) = 0 then .raise t.empty s.draws
  else
    (peek 16 (ensure 16 s)).bind fun v s' =>
      match findSymbol (t.lens s) v with
      | none => .refuse .treeNotBuilt
      | some (sym, l) => (remove l s').bind fun _ s'' => .ok sym s''

/-! ## Position slots -/

/-- `extra(slot)`: the number of offset-footer bits (30_encoding.md R77). -/
def extraBits (slot : Nat) : Nat := if slot < 4 then 0 else slot / 2 - 1

/-- `base(slot)`: the position base (30_encoding.md R77). -/
def slotBase : Nat → Nat
  | 0 => 0
  | s + 1 => slotBase s + 2 ^ extraBits s

/-- The match length of a length header without a length footer (44_lzx_symbols.md R134). -/
def shortLength (lh : Nat) : Nat := lh + Config.minMatch

/-- The match length of a length footer `v` (44_lzx_symbols.md R134). -/
def longLength (v : Nat) : Nat := Config.numPrimaryLengths + Config.minMatch + v

/-! ## Code-length arrays -/

/-- The target array of a pass (30_encoding.md R72). -/
def Pass.arr (p : Pass) (s : State) : List Nat :=
  match p with
  | .mainLow => s.sess.mainLen
  | .mainHigh => s.sess.mainLen
  | .lengths => s.sess.lenLen

/-- The first index a pass writes (30_encoding.md R72). -/
def Pass.first : Pass → Nat
  | .mainLow => 0
  | .mainHigh => 256
  | .lengths => 0

/-- One past the last index a pass writes (30_encoding.md R72). -/
def Pass.last (p : Pass) (cfg : Params) : Nat :=
  match p with
  | .mainLow => 256
  | .mainHigh => cfg.mainElements
  | .lengths => cfg.lengthCodesSent

/-- Writes a pass's target array back. -/
def Pass.setArr (p : Pass) (arr : List Nat) (s : State) : State :=
  match p with
  | .mainLow => { s with sess := { s.sess with mainLen := arr } }
  | .mainHigh => { s with sess := { s.sess with mainLen := arr } }
  | .lengths => { s with sess := { s.sess with lenLen := arr } }

/-- The array with entries `x .. x+k-1` all set to `v`. -/
def fillEntries : List Nat → Nat → Nat → Nat → List Nat
  | [], _, _, _ => []
  | _ :: ys, 0, k + 1, v => v :: fillEntries ys 0 k v
  | y :: ys, 0, 0, _ => y :: ys
  | y :: ys, x + 1, k, v => y :: fillEntries ys x k v

/-- `(old - z) mod 17` (43_lzx_blocks.md R125; 00_scope.md R8: the remainder is in 0..16). -/
def deltaMod17 (old z : Nat) : Nat := (old + 17 - z % 17) % 17

end Sys2Proof.Machine
end

