-- ==== Sys2Proof/Machine/Flags.lean ====
section
/-! DEFINITION. The status bits and the register words the host reads (10_state.md R20 to R37), and the interrupt line
(60_exceptions.md R178). -/

namespace Sys2Proof.Machine

/-- The code of an engine state (10_state.md R39). -/
def DState.code : DState → Nat
  | .idle => 0
  | .container => 1
  | .rawCopy => 2
  | .frameHdr => 3
  | .streamHdr => 4
  | .blockHdr => 5
  | .decVerbatim => 6
  | .decAligned => 7
  | .decUncomp => 8
  | .done => 9
  | .failed => 10

/-- A one-bit field. -/
def bit (b : Bool) : BitVec 1 := BitVec.ofBool b

/-- `CTRL` as it reads (10_state.md R22). -/
def ctrlWord (s : State) : Word := (0#29 ++ bit s.irqEn ++ 0#2 : BitVec 32)

/-- `STATUS` (10_state.md R23). -/
def statusWord (s : State) : Word :=
  (0#20 ++ BitVec.ofNat 4 s.seen.ds.code ++ 0#2 ++ bit s.cmdIgnored ++ bit s.compressed
    ++ bit s.e8Present ++ bit s.failed ++ bit s.done ++ bit s.busy : BitVec 32)

/-- `ERR` (10_state.md R24). -/
def errWord (s : State) : Word := (0#16 ++ s.errDetail ++ 0#4 ++ s.errCause : BitVec 32)

/-- `OUT_LEN` (10_state.md R27): `S.produced` while BUSY. -/
def outLenValue (s : State) : Nat := if s.busy then s.seen.produced else s.outLen

/-- `HDR_INFO` (10_state.md R28). -/
def hdrInfoWord (s : State) : Word := (0#8 ++ s.hdrFlags ++ s.hdrVersion ++ s.hdrPlatform : BitVec 32)

/-- `CONFIG` (10_state.md R34). -/
def configWord (s : State) : Word :=
  (0#22 ++ bit s.cfg.oddPad ++ bit (decide (s.cfg.slot2Mode = .rotate)) ++ 0#3
    ++ BitVec.ofNat 5 s.cfg.windowBits : BitVec 32)

/-- `BLOCK_INFO` (10_state.md R36). -/
def blockInfoWord (s : State) : Word :=
  (0#4 ++ bit s.seen.headerRead ++ s.seen.blockType ++ BitVec.ofNat 24 s.seen.blockRem : BitVec 32)

/-- `FRAME_REMAINING` (10_state.md R36). -/
def frameRemainingWord (s : State) : Word := (0#15 ++ BitVec.ofNat 17 s.seen.frameRem : BitVec 32)

/-- `MAGIC_CFG` (10_state.md R35). -/
def magicCfgWord (s : State) : Word := (0#8 ++ s.cfg.magic2 ++ s.cfg.magic1 ++ s.cfg.magic0 : BitVec 32)

/-- `value(o)` of 46_host_interface.md R152: the register at CSR offset `o` (10_state.md R20), or 0 where the offset is
reserved (R37). -/
def csrValue (s : State) (o : Nat) : Word :=
  if o = 0x000 then Config.idValue
  else if o = 0x004 then ctrlWord s
  else if o = 0x008 then statusWord s
  else if o = 0x00C then errWord s
  else if o = 0x010 then BitVec.ofNat 32 s.errPos
  else if o = 0x014 then BitVec.ofNat 32 s.inLen
  else if o = 0x018 then BitVec.ofNat 32 (outLenValue s)
  else if o = 0x01C then hdrInfoWord s
  else if o = 0x020 then s.hdrFileSize
  else if o = 0x024 then s.hdrDecSize
  else if o = 0x028 then s.e8FileSize
  else if o = 0x02C then s.seen.r0
  else if o = 0x030 then s.seen.r1
  else if o = 0x034 then s.seen.r2
  else if o = 0x038 then BitVec.ofNat 32 s.seen.frameCount
  else if o = 0x03C then configWord s
  else if o = 0x040 then BitVec.ofNat 32 s.cfg.inCap
  else if o = 0x044 then BitVec.ofNat 32 s.cfg.outCap
  else if o = 0x048 then blockInfoWord s
  else if o = 0x04C then frameRemainingWord s
  else if o = 0x050 then magicCfgWord s
  else 0

/-- The interrupt line (60_exceptions.md R178). -/
def irq (s : State) : Bool := s.irqEn && (s.done || s.failed)

/-- Write-1-to-clear of a sticky bit (46_host_interface.md R158). -/
def w1cBit (old : Bool) (v : Bool) : Bool := old && !v

end Sys2Proof.Machine
end

