-- ==== Sys2Proof/Machine/Output.lean ====
section
/-! DEFINITION. The output path and the accounting every element shares (44_lzx_symbols.md R129 to R131, R140, R141), and
the start and end of a frame (45_frame_demux.md R148, R149). -/

namespace Sys2Proof.Machine

/-- `emit(b)` (44_lzx_symbols.md R129). -/
def emit (b : Byte) (s : State) : State :=
  { s with
    out := s.out.set s.sess.produced b
    sess := { s.sess with
      win := s.sess.win.set s.sess.wpos b
      wpos := (s.sess.wpos + 1) % s.cfg.windowSize
      written := min (s.sess.written + 1) s.cfg.windowSize
      produced := s.sess.produced + 1 } }

/-- The window index `off` bytes behind the write position, modulo `W` (44_lzx_symbols.md R141). -/
def windowIndex (wpos off w : Nat) : Nat := (wpos + w - off % w) % w

/-- `copy(L, off)` (44_lzx_symbols.md R141): byte-serial, so each read sees every earlier emit. -/
def copyMatch : Nat → Nat → State → State
  | 0, _, s => s
  | k + 1, off, s =>
    let b := s.readCell s.sess.win (windowIndex s.sess.wpos off s.cfg.windowSize)
    copyMatch k off (emit b.1 b.2)

/-- `check(L, off)`: the first failing test, in the order of 44_lzx_symbols.md R140. -/
def checkMatch (len off : Nat) (s : State) : Option SessionError :=
  if min s.sess.blockRem s.sess.frameRem < len then some .matchOverrun
  else if off = 0 then some .offsetZero
  else if s.cfg.windowSize < off then some .offsetBeyondWindow
  else if s.sess.written < off then some .offsetBeyondHistory
  else none

/-- The DEC_ state of a block type (43_lzx_blocks.md R115, 45_frame_demux.md R148). -/
def decStateOf (t : BitVec 3) : Option DState :=
  if t = 1 then some .decVerbatim
  else if t = 2 then some .decAligned
  else if t = 3 then some .decUncomp
  else none

/-- Frame end (45_frame_demux.md R149). -/
def frameEnd (s : State) : State :=
  { s with sess := { s.sess with inPos := s.sess.frameBase + s.sess.frameLen, ds := .frameHdr } }

/-- Where an element's step goes when its block end, if any, is done (44_lzx_symbols.md R130): frame end, else
BLOCK_HDR, else it stays. The step commits. -/
def afterElement (s : State) : State :=
  if s.sess.frameRem = 0 then commit (frameEnd s)
  else if s.sess.blockRem = 0 then commit (s.goto .blockHdr)
  else commit s

/-- The pad byte is due at this block's end (44_lzx_symbols.md R131, 30_encoding.md R79): the whole block's length is odd,
even when the block spans frames. -/
def oddPadDue (s : State) : Bool :=
  s.sess.blockType == 3 && s.cfg.oddPad && s.sess.blockLen % 2 == 1

/-- `block_end()` where no pad byte is due (44_lzx_symbols.md R131): an Uncompressed block restarts the reader. -/
def blockEnd (s : State) : State := if s.sess.blockType = 3 then reinit s else s

/-- `account(k)` (44_lzx_symbols.md R130). Where the block's end takes a pad byte, the step goes on with the ODD_PAD
element, and that one finishes the accounting (log entry 3). -/
def account (k : Nat) (s : State) : State :=
  let s := { s with sess := { s.sess with
    blockRem := s.sess.blockRem - k, frameRem := s.sess.frameRem - k } }
  if s.sess.blockRem = 0 then
    if oddPadDue s then await .oddPad s else afterElement (blockEnd s)
  else afterElement s

/-- The `goto` that ends `frame_start` (45_frame_demux.md R148, R150). -/
def frameStartGoto (s : State) : Res Unit :=
  if s.sess.headerRead = false then .ok () (commit (s.goto .streamHdr))
  else if s.sess.blockRem = 0 then .ok () (commit (s.goto .blockHdr))
  else
    match decStateOf s.sess.blockType with
    | some d => .ok () (commit (s.goto d))
    | none => .refuse .noBlockType

/-- `frame_start(a, hl, bs, fs)` (45_frame_demux.md R148). -/
def frameStart (a hl bs fs : Nat) (s : State) : Res Unit :=
  if bs = 0 ∨ fs = 0 then .raise .frameZeroSize s.draws
  else if s.sess.decSize - s.sess.produced < fs then .raise .frameOverTotal s.draws
  else if s.inLen < a + hl + bs then .raise .frameDataShort s.draws
  else
    let s := { s with sess := { s.sess with fhdrPos := a } }
    let s := readerInit (a + hl) bs s
    frameStartGoto { s with sess := { s.sess with
      frameSize := fs, frameRem := fs, frameCount := s.sess.frameCount + 1 } }

end Sys2Proof.Machine
end

