-- ==== Sys2Proof/Machine/Container.lean ====
section
/-! DEFINITION. The container instructions and the raw copy (40_container.md R85 to R90). -/

namespace Sys2Proof.Machine

/-- The fields every accepted container writes (40_container.md R86); `file_size` is LE32(6). -/
def commitHeader (platform version flags : Byte) (s : State) : State :=
  let fs := s.readLe32 6
  { fs.2 with
    hdrPlatform := platform
    hdrVersion := version
    hdrFlags := flags
    hdrFileSize := fs.1
    compressed := flags.getLsbD 7
    sess := { fs.2.sess with compressed := flags.getLsbD 7 } }

/-- CONT_RAW (40_container.md R88). -/
def execContRaw (platform version flags : Byte) (s : State) : Host.Outcome State Fault Refusal :=
  runElement s fun s =>
    if s.cfg.outCap < s.inLen - 10 then .raise .outCapacity s.draws
    else
      let s := commitHeader platform version flags s
      let s := { s with sess := { s.sess with decSize := s.inLen - 10 }, hdrDecSize := 0 }
      .ok () (commit (s.goto .rawCopy))

/-- CONT_COMPRESSED (40_container.md R89). -/
def execContCompressed (platform version flags : Byte) (s : State) : Host.Outcome State Fault Refusal :=
  runElement s fun s =>
    if s.inLen < 14 then .raise .headerShort s.draws
    else
      let s := commitHeader platform version flags s
      let d := s.readLe32 10
      if d.2.cfg.outCap < d.1.toNat then .raise .outCapacity d.2.draws
      else
        let s := { d.2 with
          sess := { d.2.sess with decSize := d.1.toNat, inPos := 14, produced := 0 }
          hdrDecSize := d.1 }
        .ok () (commit (s.goto .frameHdr))

/-- CONT_BADMAGIC (40_container.md R87). -/
def execContBadmagic (_magic : BitVec 24) (s : State) : Host.Outcome State Fault Refusal :=
  runElement s fun s => .raise .badMagic s.draws

/-- The loop of RAW_COPY: `OUT[i] <- IN[10 + i]` for `n` offsets from `i` (40_container.md R90). -/
def copyPayload : Nat → Nat → State → State
  | 0, _, s => s
  | n + 1, i, s =>
    let b := s.readIn (10 + i)
    copyPayload n (i + 1) (b.2.setOut i b.1)

/-- RAW_COPY (40_container.md R90). -/
def execRawCopy (s : State) : Host.Outcome State Fault Refusal :=
  runElement s fun s =>
    let s := copyPayload s.sess.decSize 0 s
    .ok () (endDone { s with sess := { s.sess with produced := s.sess.decSize } })

end Sys2Proof.Machine
end

