-- ==== Sys2Proof/Machine/Frame.lean ====
section
/-! DEFINITION. The frame headers (45_frame_demux.md R146, R147). -/

namespace Sys2Proof.Machine

/-- FRAME_STD (45_frame_demux.md R146): `h0` is `IN[a]`, already read to select the row. -/
def execFrameStd (h0 : Byte) (s : State) : Host.Outcome State Fault Refusal :=
  runElement s fun s =>
    if s.inLen < s.sess.inPos + 2 then .raise .frameHeaderShort s.draws
    else
      let h1 := s.readIn (s.sess.inPos + 1)
      frameStart h1.2.sess.inPos 2 (be16 h0 h1.1) Config.defaultFrameSize h1.2

/-- FRAME_EXT (45_frame_demux.md R147): `IN[a]` is 0xFF, already read to select the row. -/
def execFrameExt (s : State) : Host.Outcome State Fault Refusal :=
  runElement s fun s =>
    if s.inLen < s.sess.inPos + 5 then .raise .frameHeaderShort s.draws
    else
      let fHi := s.readIn (s.sess.inPos + 1)
      let fLo := fHi.2.readIn (s.sess.inPos + 2)
      let bHi := fLo.2.readIn (s.sess.inPos + 3)
      let bLo := bHi.2.readIn (s.sess.inPos + 4)
      frameStart bLo.2.sess.inPos 5 (be16 bHi.1 bLo.1) (be16 fHi.1 fLo.1) bLo.2

end Sys2Proof.Machine
end

