-- ==== Sys2Proof/Machine/Block.lean ====
section
/-! DEFINITION. The stream header and the block headers (43_lzx_blocks.md R113 to R120). -/

namespace Sys2Proof.Machine

/-- E8_OFF (43_lzx_blocks.md R113). -/
def execE8Off (s : State) : Host.Outcome State Fault Refusal :=
  runElement s fun s =>
    let s := { s with
      sess := { s.sess with e8Present := false, e8Size := 0, headerRead := true }
      e8Present := false }
    .ok () (commit (s.goto .blockHdr))

/-- E8_ON (43_lzx_blocks.md R114): the high half first. -/
def execE8On (s : State) : Host.Outcome State Fault Refusal :=
  runElement s fun s =>
    (readBits 16 s).bind fun hi s => (readBits 16 s).bind fun lo s =>
      let size : Word := BitVec.ofNat 32 (hi * 65536 + lo)
      let s := { s with
        sess := { s.sess with e8Present := true, e8Size := size, headerRead := true }
        e8FileSize := size
        e8Present := true }
      .ok () (commit (s.goto .blockHdr))

/-- The 24-bit block length, 16-bit high part first (43_lzx_blocks.md R115). -/
def readBlockLen (s : State) : Res Nat :=
  (readBits 16 s).bind fun hi s => (readBits 8 s).bind fun lo s => .ok (hi * 256 + lo) s

/-- The common tail of 43_lzx_blocks.md R115: the block's type and length are written; a block of length 0 ends at once
(R120), and its length being even no pad byte is due; else `goto` the DEC_ state `d`. The step commits. -/
def headerTail (h : BlockHdr) (d : DState) (s : State) : State :=
  let s := { s with sess := { s.sess with blockType := h.type, blockLen := h.len, blockRem := h.len } }
  if h.len = 0 then commit ((blockEnd s).goto .blockHdr) else commit (s.goto d)

/-- BLK_VERBATIM (43_lzx_blocks.md R117): the tree passes follow, in the same step. -/
def execBlkVerbatim (s : State) : Host.Outcome State Fault Refusal :=
  runElement s fun s =>
    (readBlockLen s).bind fun n s => .ok () (await (.pretree ⟨1, n⟩ .mainLow) s)

/-- BLK_ALIGNED (43_lzx_blocks.md R118): the aligned lengths, then the tree passes follow, in the same step. -/
def execBlkAligned (s : State) : Host.Outcome State Fault Refusal :=
  runElement s fun s =>
    (readBlockLen s).bind fun n s => .ok () (await (.alignedLens ⟨2, n⟩) s)

/-- BLK_UNCOMP (43_lzx_blocks.md R119): the pad and R words follow, in the same step. -/
def execBlkUncomp (s : State) : Host.Outcome State Fault Refusal :=
  runElement s fun s =>
    (readBlockLen s).bind fun n s => .ok () (await (.uncompAlignR ⟨3, n⟩) s)

/-- BLK_INVALID (43_lzx_blocks.md R116): a fault, after the 24 length bits have been read. -/
def execBlkInvalid (t : BitVec 3) (s : State) : Host.Outcome State Fault Refusal :=
  runElement s fun s =>
    (readBlockLen s).bind fun _ s => .raise (.blockType t) s.draws

/-- UNCOMP_ALIGN_R (43_lzx_blocks.md R119): align, then R0, R1, R2, then the common tail. -/
def execUncompAlignR (s : State) : Host.Outcome State Fault Refusal :=
  runElement s fun s =>
    match awaited s with
    | .uncompAlignR h =>
      (readWord32 (align16 s)).bind fun w0 s => (readWord32 s).bind fun w1 s =>
        (readWord32 s).bind fun w2 s => .ok () (headerTail h .decUncomp (s.setR w0 w1 w2))
    | _ => .refuse .wrongContext

end Sys2Proof.Machine
end

