-- ==== Sys2Proof/Machine/Trees.lean ====
section
/-! DEFINITION. The tree description of a Verbatim or Aligned block header (43_lzx_blocks.md R121 to R128). -/

namespace Sys2Proof.Machine

/-- The DEC_ state a header with trees ends in: DEC_ALIGNED for type 2, DEC_VERBATIM for type 1
(43_lzx_blocks.md R117, R118). -/
def treeDecState (h : BlockHdr) : DState := if h.type = 2 then .decAligned else .decVerbatim

/-- The end of a pass (43_lzx_blocks.md R122): after pass 1 pass 2 follows; after pass 2 the maintree is built and pass 3
follows; after pass 3 the length tree is built and the common tail of R115 ends the header. -/
def passEnd (h : BlockHdr) (p : Pass) (s : State) : Res Unit :=
  match p with
  | .mainLow => .ok () (await (.pretree h .mainHigh) s)
  | .mainHigh => (build .main s).bind fun _ s => .ok () (await (.pretree h .lengths) s)
  | .lengths => (build .len s).bind fun _ s => .ok () (headerTail h (treeDecState h) s)

/-- The loop test of `read_lengths` (43_lzx_blocks.md R123): the next symbol while `x < last`, else the pass ends. -/
def passContinue (h : BlockHdr) (p : Pass) (x : Nat) (s : State) : Res Unit :=
  if x < p.last s.cfg then .ok () (await (.preSym h p x) s) else passEnd h p s

/-- Writes entries `x .. x+k-1` of the pass's array and goes on behind them (43_lzx_blocks.md R125 to R128). -/
def passWrite (h : BlockHdr) (p : Pass) (x k v : Nat) (s : State) : Res Unit :=
  passContinue h p (x + k) (p.setArr (fillEntries (p.arr s) x k v) s)

/-- The old length of entry `x` in the pass's array (43_lzx_blocks.md R123). -/
def oldLength (p : Pass) (x : Nat) (s : State) : Nat := (p.arr s).getD x 0

/-- ALIGNED_LENS (43_lzx_blocks.md R121). -/
def execAlignedLens (s : State) : Host.Outcome State Fault Refusal :=
  runElement s fun s =>
    match awaited s with
    | .alignedLens h =>
      (readFields 3 Config.alignedSymbols s).bind fun ls s =>
        (build .aligned { s with sess := { s.sess with alLen := ls } }).bind fun _ s =>
          .ok () (await (.pretree h .mainLow) s)
    | _ => .refuse .wrongContext

/-- PRETREE (43_lzx_blocks.md R124). -/
def execPretree (s : State) : Host.Outcome State Fault Refusal :=
  runElement s fun s =>
    match awaited s with
    | .pretree h p =>
      (readFields 4 Config.pretreeSymbols s).bind fun ls s =>
        (build .pre { s with sess := { s.sess with preLen := ls } }).bind fun _ s =>
          passContinue h p p.first s
    | _ => .refuse .wrongContext

/-- PRE_DELTA (43_lzx_blocks.md R125). -/
def execPreDelta (z : BitVec 5) (s : State) : Host.Outcome State Fault Refusal :=
  runElement s fun s =>
    match awaited s with
    | .preSym h p x => passWrite h p x 1 (deltaMod17 (oldLength p x s) z.toNat) s
    | _ => .refuse .wrongContext

/-- A run of zeros: a footer of `n` bits on the base `k0`, checked against the pass's end before it is written
(43_lzx_blocks.md R126, R127). -/
def zeroRun (n k0 : Nat) (s : State) : Res Unit :=
  match awaited s with
  | .preSym h p x =>
    (readBits n s).bind fun f s =>
      if p.last s.cfg < x + (f + k0) then .raise .runOverflow s.draws
      else passWrite h p x (f + k0) 0 s
  | _ => .refuse .wrongContext

/-- PRE_ZERO_SHORT (43_lzx_blocks.md R126). -/
def execPreZeroShort (s : State) : Host.Outcome State Fault Refusal :=
  runElement s fun s => zeroRun 4 4 s

/-- PRE_ZERO_LONG (43_lzx_blocks.md R127). -/
def execPreZeroLong (s : State) : Host.Outcome State Fault Refusal :=
  runElement s fun s => zeroRun 5 20 s

/-- PRE_REPEAT (43_lzx_blocks.md R128): the run is checked before the repeated symbol is decoded. -/
def execPreRepeat (s : State) : Host.Outcome State Fault Refusal :=
  runElement s fun s =>
    match awaited s with
    | .preSym h p x =>
      (readBits 1 s).bind fun f s =>
        if p.last s.cfg < x + (f + 4) then .raise .runOverflow s.draws
        else
          (decodeSymbol .pre s).bind fun z2 s =>
            if 16 < z2 then .raise .repeatSymbolInvalid s.draws
            else passWrite h p x (f + 4) (deltaMod17 (oldLength p x s) z2) s
    | _ => .refuse .wrongContext

end Sys2Proof.Machine
end

