-- ==== Sys2Proof/Machine/Symbols.lean ====
section
/-! DEFINITION. The main-tree elements and their footers (44_lzx_symbols.md R132 to R142), and the raw bytes of an
Uncompressed block (R143, R131). -/

namespace Sys2Proof.Machine

/-- MAIN_LITERAL (44_lzx_symbols.md R133). -/
def execMainLiteral (b : Byte) (s : State) : Host.Outcome State Fault Refusal :=
  runElement s fun s => .ok () (account 1 (emit b s))

/-- The registers after a match of slot 2 (44_lzx_symbols.md R137). -/
def slot2Registers (s : State) : Word × Word × Word :=
  match s.cfg.slot2Mode with
  | .swap => (s.sess.r2, s.sess.r1, s.sess.r0)
  | .rotate => (s.sess.r2, s.sess.r0, s.sess.r1)

/-- The end of a match element (44_lzx_symbols.md R132): the checks, the copy, the new registers, the accounting. -/
def finishMatch (len off : Nat) (r : Word × Word × Word) (s : State) : Res Unit :=
  match checkMatch len off s with
  | some e => .raise e s.draws
  | none => .ok () (account len ((copyMatch len off s).setR r.1 r.2.1 r.2.2))

/-- A match with the explicit offset `off`: it enters R0 (44_lzx_symbols.md R138). -/
def finishExplicit (len off : Nat) (s : State) : Res Unit :=
  finishMatch len off (BitVec.ofNat 32 off, s.sess.r0, s.sess.r1) s

/-- The slot rules from the match length on (44_lzx_symbols.md R135 to R138): slots 0, 1, 2 take a repeated offset; an
explicit slot reads its plain footer, or in an Aligned block with 3 or more extra bits the step goes on with the
ALIGNED_SYM element. -/
def matchOffset (slot len : Nat) (s : State) : Res Unit :=
  if slot = 0 then finishMatch len s.sess.r0.toNat (s.sess.r0, s.sess.r1, s.sess.r2) s
  else if slot = 1 then finishMatch len s.sess.r1.toNat (s.sess.r1, s.sess.r0, s.sess.r2) s
  else if slot = 2 then finishMatch len s.sess.r2.toNat (slot2Registers s) s
  else if s.sess.blockType = 2 ∧ 3 ≤ extraBits slot then .ok () (await (.alignedSym slot len) s)
  else
    (readBits (extraBits slot) s).bind fun v s => finishExplicit len (slotBase slot - 2 + v) s

/-- A match symbol of a slot (44_lzx_symbols.md R132, R134): with length header 7 the step goes on with the LEN_FOOTER
element, else the length is `lh + 2`. -/
def matchSymbol (slot : Nat) (lh : BitVec 3) (s : State) : Res Unit :=
  if lh.toNat = Config.numPrimaryLengths then .ok () (await (.lenFooter slot) s)
  else matchOffset slot (shortLength lh.toNat) s

/-- MATCH_R0 (44_lzx_symbols.md R135). -/
def execMatchR0 (lh : BitVec 3) (s : State) : Host.Outcome State Fault Refusal :=
  runElement s (matchSymbol 0 lh)

/-- MATCH_R1 (44_lzx_symbols.md R136). -/
def execMatchR1 (lh : BitVec 3) (s : State) : Host.Outcome State Fault Refusal :=
  runElement s (matchSymbol 1 lh)

/-- MATCH_R2 (44_lzx_symbols.md R137). -/
def execMatchR2 (lh : BitVec 3) (s : State) : Host.Outcome State Fault Refusal :=
  runElement s (matchSymbol 2 lh)

/-- MATCH_S3 (44_lzx_symbols.md R138). -/
def execMatchS3 (lh : BitVec 3) (s : State) : Host.Outcome State Fault Refusal :=
  runElement s (matchSymbol 3 lh)

/-- MATCH_S4 (44_lzx_symbols.md R138). -/
def execMatchS4 (lh : BitVec 3) (s : State) : Host.Outcome State Fault Refusal :=
  runElement s (matchSymbol 4 lh)

/-- MATCH_S5 (44_lzx_symbols.md R138). -/
def execMatchS5 (lh : BitVec 3) (s : State) : Host.Outcome State Fault Refusal :=
  runElement s (matchSymbol 5 lh)

/-- MATCH_S6 (44_lzx_symbols.md R138). -/
def execMatchS6 (lh : BitVec 3) (s : State) : Host.Outcome State Fault Refusal :=
  runElement s (matchSymbol 6 lh)

/-- MATCH_S7 (44_lzx_symbols.md R138). -/
def execMatchS7 (lh : BitVec 3) (s : State) : Host.Outcome State Fault Refusal :=
  runElement s (matchSymbol 7 lh)

/-- MATCH_S8 (44_lzx_symbols.md R138). -/
def execMatchS8 (lh : BitVec 3) (s : State) : Host.Outcome State Fault Refusal :=
  runElement s (matchSymbol 8 lh)

/-- MATCH_S9 (44_lzx_symbols.md R138). -/
def execMatchS9 (lh : BitVec 3) (s : State) : Host.Outcome State Fault Refusal :=
  runElement s (matchSymbol 9 lh)

/-- MATCH_S10 (44_lzx_symbols.md R138). -/
def execMatchS10 (lh : BitVec 3) (s : State) : Host.Outcome State Fault Refusal :=
  runElement s (matchSymbol 10 lh)

/-- MATCH_S11 (44_lzx_symbols.md R138). -/
def execMatchS11 (lh : BitVec 3) (s : State) : Host.Outcome State Fault Refusal :=
  runElement s (matchSymbol 11 lh)

/-- MATCH_S12 (44_lzx_symbols.md R138). -/
def execMatchS12 (lh : BitVec 3) (s : State) : Host.Outcome State Fault Refusal :=
  runElement s (matchSymbol 12 lh)

/-- MATCH_S13 (44_lzx_symbols.md R138). -/
def execMatchS13 (lh : BitVec 3) (s : State) : Host.Outcome State Fault Refusal :=
  runElement s (matchSymbol 13 lh)

/-- MATCH_S14 (44_lzx_symbols.md R138). -/
def execMatchS14 (lh : BitVec 3) (s : State) : Host.Outcome State Fault Refusal :=
  runElement s (matchSymbol 14 lh)

/-- MATCH_S15 (44_lzx_symbols.md R138). -/
def execMatchS15 (lh : BitVec 3) (s : State) : Host.Outcome State Fault Refusal :=
  runElement s (matchSymbol 15 lh)

/-- MATCH_S16 (44_lzx_symbols.md R138). -/
def execMatchS16 (lh : BitVec 3) (s : State) : Host.Outcome State Fault Refusal :=
  runElement s (matchSymbol 16 lh)

/-- MATCH_S17 (44_lzx_symbols.md R138). -/
def execMatchS17 (lh : BitVec 3) (s : State) : Host.Outcome State Fault Refusal :=
  runElement s (matchSymbol 17 lh)

/-- MATCH_S18 (44_lzx_symbols.md R138). -/
def execMatchS18 (lh : BitVec 3) (s : State) : Host.Outcome State Fault Refusal :=
  runElement s (matchSymbol 18 lh)

/-- MATCH_S19 (44_lzx_symbols.md R138). -/
def execMatchS19 (lh : BitVec 3) (s : State) : Host.Outcome State Fault Refusal :=
  runElement s (matchSymbol 19 lh)

/-- MATCH_S20 (44_lzx_symbols.md R138). -/
def execMatchS20 (lh : BitVec 3) (s : State) : Host.Outcome State Fault Refusal :=
  runElement s (matchSymbol 20 lh)

/-- MATCH_S21 (44_lzx_symbols.md R138). -/
def execMatchS21 (lh : BitVec 3) (s : State) : Host.Outcome State Fault Refusal :=
  runElement s (matchSymbol 21 lh)

/-- MATCH_S22 (44_lzx_symbols.md R138). -/
def execMatchS22 (lh : BitVec 3) (s : State) : Host.Outcome State Fault Refusal :=
  runElement s (matchSymbol 22 lh)

/-- MATCH_S23 (44_lzx_symbols.md R138). -/
def execMatchS23 (lh : BitVec 3) (s : State) : Host.Outcome State Fault Refusal :=
  runElement s (matchSymbol 23 lh)

/-- MATCH_S24 (44_lzx_symbols.md R138). -/
def execMatchS24 (lh : BitVec 3) (s : State) : Host.Outcome State Fault Refusal :=
  runElement s (matchSymbol 24 lh)

/-- MATCH_S25 (44_lzx_symbols.md R138). -/
def execMatchS25 (lh : BitVec 3) (s : State) : Host.Outcome State Fault Refusal :=
  runElement s (matchSymbol 25 lh)

/-- MATCH_S26 (44_lzx_symbols.md R138). -/
def execMatchS26 (lh : BitVec 3) (s : State) : Host.Outcome State Fault Refusal :=
  runElement s (matchSymbol 26 lh)

/-- MATCH_S27 (44_lzx_symbols.md R138). -/
def execMatchS27 (lh : BitVec 3) (s : State) : Host.Outcome State Fault Refusal :=
  runElement s (matchSymbol 27 lh)

/-- MATCH_S28 (44_lzx_symbols.md R138). -/
def execMatchS28 (lh : BitVec 3) (s : State) : Host.Outcome State Fault Refusal :=
  runElement s (matchSymbol 28 lh)

/-- MATCH_S29 (44_lzx_symbols.md R138). -/
def execMatchS29 (lh : BitVec 3) (s : State) : Host.Outcome State Fault Refusal :=
  runElement s (matchSymbol 29 lh)

/-- MATCH_S30 (44_lzx_symbols.md R138). -/
def execMatchS30 (lh : BitVec 3) (s : State) : Host.Outcome State Fault Refusal :=
  runElement s (matchSymbol 30 lh)

/-- MATCH_S31 (44_lzx_symbols.md R138). -/
def execMatchS31 (lh : BitVec 3) (s : State) : Host.Outcome State Fault Refusal :=
  runElement s (matchSymbol 31 lh)

/-- MATCH_S32 (44_lzx_symbols.md R138). -/
def execMatchS32 (lh : BitVec 3) (s : State) : Host.Outcome State Fault Refusal :=
  runElement s (matchSymbol 32 lh)

/-- MATCH_S33 (44_lzx_symbols.md R138). -/
def execMatchS33 (lh : BitVec 3) (s : State) : Host.Outcome State Fault Refusal :=
  runElement s (matchSymbol 33 lh)

/-- MATCH_S34 (44_lzx_symbols.md R138). -/
def execMatchS34 (lh : BitVec 3) (s : State) : Host.Outcome State Fault Refusal :=
  runElement s (matchSymbol 34 lh)

/-- MATCH_S35 (44_lzx_symbols.md R138). -/
def execMatchS35 (lh : BitVec 3) (s : State) : Host.Outcome State Fault Refusal :=
  runElement s (matchSymbol 35 lh)

/-- LEN_FOOTER (44_lzx_symbols.md R134): the length-tree code of the match in progress; its slot rule follows. -/
def execLenFooter (s : State) : Host.Outcome State Fault Refusal :=
  runElement s fun s =>
    match awaited s with
    | .lenFooter slot =>
      (decodeSymbol .len s).bind fun v s => matchOffset slot (longLength v) s
    | _ => .refuse .wrongContext

/-- ALIGNED_SYM (44_lzx_symbols.md R139): the high bits, then the aligned-tree code. -/
def execAlignedSym (s : State) : Host.Outcome State Fault Refusal :=
  runElement s fun s =>
    match awaited s with
    | .alignedSym slot len =>
      (readBits (extraBits slot - 3) s).bind fun hi s => (decodeSymbol .aligned s).bind fun a s =>
        finishExplicit len (slotBase slot - 2 + hi * 8 + a) s
    | _ => .refuse .wrongContext

/-- RAW_BYTE (44_lzx_symbols.md R143): `b` is the byte `readbyte()` gave when the element was fetched. -/
def execRawByte (b : Byte) (s : State) : Host.Outcome State Fault Refusal :=
  runElement s fun s => .ok () (account 1 (emit b s))

/-- ODD_PAD (44_lzx_symbols.md R131): the pad byte is skipped, unchecked and unread; the reader restarts, and the
accounting of R130 goes on behind the block's end. -/
def execOddPad (s : State) : Host.Outcome State Fault Refusal :=
  runElement s fun s =>
    match awaited s with
    | .oddPad => .ok () (afterElement (reinit (s.setReader (s.sess.rdC + 1) s.sess.rdQ)))
    | _ => .refuse .wrongContext

end Sys2Proof.Machine
end

