-- ==== Sys2Proof/Machine/HostBus.lean ====
section
/-! DEFINITION. The host's accesses (46_host_interface.md R152 to R166). A meaning answers the access: it records the
response, and a bus error changes nothing else but the sticky mark. -/

namespace Sys2Proof.Machine

/-- CSR_READ (46_host_interface.md R152). -/
def execCsrRead (o : BitVec 12) (s : State) : Host.Outcome State Fault Refusal :=
  if o.toNat % 4 = 0 then .next (s.respond (.data (csrValue s o.toNat))) else .next (busErrorResp s)

/-- A write of CTRL (46_host_interface.md R154): SOFT_RESET wins; else IRQ_EN, then START. -/
def writeCtrl (v : Word) (s : State) : State :=
  if v.getLsbD 1 then softResetState s
  else
    let s := { s with irqEn := v.getLsbD 2 }
    if v.getLsbD 0 then startBit s else s

/-- A write of STATUS (46_host_interface.md R158). -/
def writeStatus (v : Word) (s : State) : State :=
  { s with
    done := w1cBit s.done (v.getLsbD 1)
    failed := w1cBit s.failed (v.getLsbD 2)
    cmdIgnored := w1cBit s.cmdIgnored (v.getLsbD 5) }

/-- A write of IN_LEN (46_host_interface.md R159). -/
def writeInLen (v : Word) (s : State) : State :=
  if s.busy then { s with cmdIgnored := true } else { s with inLen := min v.toNat s.cfg.inCap }

/-- CSR_WRITE (46_host_interface.md R153): writes of read-only and reserved registers have no effect (10_state.md R37). -/
def execCsrWrite (o : BitVec 12) (v : Word) (s : State) : Host.Outcome State Fault Refusal :=
  if o.toNat % 4 = 0 then
    .next ((if o.toNat = 0x004 then writeCtrl v s
      else if o.toNat = 0x008 then writeStatus v s
      else if o.toNat = 0x014 then writeInLen v s
      else s).respond .ok)
  else .next (busErrorResp s)

/-- START (46_host_interface.md R154, R155). -/
def execStart (v : Word) (s : State) : Host.Outcome State Fault Refusal :=
  .next ((writeCtrl v s).respond .ok)

/-- SOFT_RESET (46_host_interface.md R154, R156). -/
def execSoftReset (v : Word) (s : State) : Host.Outcome State Fault Refusal :=
  .next ((writeCtrl v s).respond .ok)

/-- IRQ_EN (46_host_interface.md R154, R157). -/
def execIrqEn (v : Word) (s : State) : Host.Outcome State Fault Refusal :=
  .next ((writeCtrl v s).respond .ok)

/-- W1C (46_host_interface.md R158). -/
def execW1c (v : Word) (s : State) : Host.Outcome State Fault Refusal :=
  .next ((writeStatus v s).respond .ok)

/-- IN_LEN (46_host_interface.md R159). -/
def execInLen (v : Word) (s : State) : Host.Outcome State Fault Refusal :=
  .next ((writeInLen v s).respond .ok)

/-- An aperture access is admitted: not BUSY (46_host_interface.md R165), a width the apertures have (20_memory.md R55),
all bytes below the cap (20_memory.md R59). -/
def apertureOk (s : State) (a : Nat) (size : Size) (cap : Nat) : Bool :=
  !s.busy && apertureWidthOk a size && decide (a + size.bytes ≤ cap)

/-- Writes the low `n` bytes of a datum, little-endian, from offset `a` (46_host_interface.md R161). -/
def writeBytes : Nat → Nat → Word → Memory → Memory
  | 0, _, _, m => m
  | n + 1, a, v, m => writeBytes n (a + 1) (v >>> 8) (m.set a (v.extractLsb' 0 8))

/-- IN_WRITE (46_host_interface.md R161). -/
def execInWrite (a : BitVec 20) (size : Size) (v : Word) (s : State) : Host.Outcome State Fault Refusal :=
  if apertureOk s a.toNat size s.cfg.inCap then
    .next ({ s with inp := writeBytes size.bytes a.toNat v s.inp }.respond .ok)
  else .next (busErrorResp s)

/-- Reads `n` bytes of `IN` from offset `a`, little-endian, a draw for each *unwritten* one
(46_host_interface.md R162). -/
def readInBytes : Nat → Nat → State → Word × State
  | 0, _, s => (0, s)
  | n + 1, a, s =>
    let b := s.readIn a
    let rest := readInBytes n (a + 1) b.2
    ((rest.1 <<< 8) ||| b.1.setWidth 32, rest.2)

/-- IN_READ (46_host_interface.md R162). -/
def execInRead (a : BitVec 20) (size : Size) (s : State) : Host.Outcome State Fault Refusal :=
  if apertureOk s a.toNat size s.cfg.inCap then
    let r := readInBytes size.bytes a.toNat s
    .next (r.2.respond (.data r.1))
  else .next (busErrorResp s)

/-- A byte of `OUT` as the host reads it: 0 at and beyond OUT_LEN (20_memory.md R51). -/
def readOutByte (a : Nat) (s : State) : Byte × State :=
  if a < outLenValue s then s.readCell s.out a else (0, s)

/-- Reads `n` bytes of `OUT` from offset `a`, little-endian (46_host_interface.md R163). -/
def readOutBytes : Nat → Nat → State → Word × State
  | 0, _, s => (0, s)
  | n + 1, a, s =>
    let b := readOutByte a s
    let rest := readOutBytes n (a + 1) b.2
    ((rest.1 <<< 8) ||| b.1.setWidth 32, rest.2)

/-- OUT_READ (46_host_interface.md R163). -/
def execOutRead (a : BitVec 20) (size : Size) (s : State) : Host.Outcome State Fault Refusal :=
  if apertureOk s a.toNat size s.cfg.outCap then
    let r := readOutBytes size.bytes a.toNat s
    .next (r.2.respond (.data r.1))
  else .next (busErrorResp s)

/-- OUT_WRITE (46_host_interface.md R164): always a bus error. -/
def execOutWrite (_a : BitVec 20) (_size : Size) (_v : Word) (s : State) : Host.Outcome State Fault Refusal :=
  .next (busErrorResp s)

/-- BUS_ERROR (46_host_interface.md R166). -/
def execBusError (_acc : Access) (s : State) : Host.Outcome State Fault Refusal :=
  .next (busErrorResp s)

end Sys2Proof.Machine
end

