-- ==== Sys2Proof/Machine/Dispatch.lean ====
section
/-! DEFINITION. The dispatch: one arm per constructor of `Instr`, each one call of its meaning. -/

namespace Sys2Proof.Machine

/-- The meaning of an instruction, in the table's order (30_encoding.md R82). -/
def exec (i : Instr) (s : State) : Host.Outcome State Fault Refusal :=
  match i with
  | .contRaw platform version flags => Sys2Proof.Machine.execContRaw platform version flags s
  | .contCompressed platform version flags => Sys2Proof.Machine.execContCompressed platform version flags s
  | .contBadmagic magic => Sys2Proof.Machine.execContBadmagic magic s
  | .rawCopy => Sys2Proof.Machine.execRawCopy s
  | .frameExt => Sys2Proof.Machine.execFrameExt s
  | .frameStd h0 => Sys2Proof.Machine.execFrameStd h0 s
  | .e8Off => Sys2Proof.Machine.execE8Off s
  | .e8On => Sys2Proof.Machine.execE8On s
  | .blkVerbatim => Sys2Proof.Machine.execBlkVerbatim s
  | .blkAligned => Sys2Proof.Machine.execBlkAligned s
  | .blkUncomp => Sys2Proof.Machine.execBlkUncomp s
  | .blkInvalid t => Sys2Proof.Machine.execBlkInvalid t s
  | .alignedLens => Sys2Proof.Machine.execAlignedLens s
  | .pretree => Sys2Proof.Machine.execPretree s
  | .preDelta z => Sys2Proof.Machine.execPreDelta z s
  | .preZeroShort => Sys2Proof.Machine.execPreZeroShort s
  | .preZeroLong => Sys2Proof.Machine.execPreZeroLong s
  | .preRepeat => Sys2Proof.Machine.execPreRepeat s
  | .mainLiteral b => Sys2Proof.Machine.execMainLiteral b s
  | .matchR0 lh => Sys2Proof.Machine.execMatchR0 lh s
  | .matchR1 lh => Sys2Proof.Machine.execMatchR1 lh s
  | .matchR2 lh => Sys2Proof.Machine.execMatchR2 lh s
  | .matchS3 lh => Sys2Proof.Machine.execMatchS3 lh s
  | .matchS4 lh => Sys2Proof.Machine.execMatchS4 lh s
  | .matchS5 lh => Sys2Proof.Machine.execMatchS5 lh s
  | .matchS6 lh => Sys2Proof.Machine.execMatchS6 lh s
  | .matchS7 lh => Sys2Proof.Machine.execMatchS7 lh s
  | .matchS8 lh => Sys2Proof.Machine.execMatchS8 lh s
  | .matchS9 lh => Sys2Proof.Machine.execMatchS9 lh s
  | .matchS10 lh => Sys2Proof.Machine.execMatchS10 lh s
  | .matchS11 lh => Sys2Proof.Machine.execMatchS11 lh s
  | .matchS12 lh => Sys2Proof.Machine.execMatchS12 lh s
  | .matchS13 lh => Sys2Proof.Machine.execMatchS13 lh s
  | .matchS14 lh => Sys2Proof.Machine.execMatchS14 lh s
  | .matchS15 lh => Sys2Proof.Machine.execMatchS15 lh s
  | .matchS16 lh => Sys2Proof.Machine.execMatchS16 lh s
  | .matchS17 lh => Sys2Proof.Machine.execMatchS17 lh s
  | .matchS18 lh => Sys2Proof.Machine.execMatchS18 lh s
  | .matchS19 lh => Sys2Proof.Machine.execMatchS19 lh s
  | .matchS20 lh => Sys2Proof.Machine.execMatchS20 lh s
  | .matchS21 lh => Sys2Proof.Machine.execMatchS21 lh s
  | .matchS22 lh => Sys2Proof.Machine.execMatchS22 lh s
  | .matchS23 lh => Sys2Proof.Machine.execMatchS23 lh s
  | .matchS24 lh => Sys2Proof.Machine.execMatchS24 lh s
  | .matchS25 lh => Sys2Proof.Machine.execMatchS25 lh s
  | .matchS26 lh => Sys2Proof.Machine.execMatchS26 lh s
  | .matchS27 lh => Sys2Proof.Machine.execMatchS27 lh s
  | .matchS28 lh => Sys2Proof.Machine.execMatchS28 lh s
  | .matchS29 lh => Sys2Proof.Machine.execMatchS29 lh s
  | .matchS30 lh => Sys2Proof.Machine.execMatchS30 lh s
  | .matchS31 lh => Sys2Proof.Machine.execMatchS31 lh s
  | .matchS32 lh => Sys2Proof.Machine.execMatchS32 lh s
  | .matchS33 lh => Sys2Proof.Machine.execMatchS33 lh s
  | .matchS34 lh => Sys2Proof.Machine.execMatchS34 lh s
  | .matchS35 lh => Sys2Proof.Machine.execMatchS35 lh s
  | .lenFooter => Sys2Proof.Machine.execLenFooter s
  | .alignedSym => Sys2Proof.Machine.execAlignedSym s
  | .uncompAlignR => Sys2Proof.Machine.execUncompAlignR s
  | .rawByte b => Sys2Proof.Machine.execRawByte b s
  | .oddPad => Sys2Proof.Machine.execOddPad s
  | .csrRead o => Sys2Proof.Machine.execCsrRead o s
  | .csrWrite o v => Sys2Proof.Machine.execCsrWrite o v s
  | .start v => Sys2Proof.Machine.execStart v s
  | .softReset v => Sys2Proof.Machine.execSoftReset v s
  | .irqEn v => Sys2Proof.Machine.execIrqEn v s
  | .w1c v => Sys2Proof.Machine.execW1c v s
  | .inLen v => Sys2Proof.Machine.execInLen v s
  | .inWrite a size v => Sys2Proof.Machine.execInWrite a size v s
  | .inRead a size => Sys2Proof.Machine.execInRead a size s
  | .outRead a size => Sys2Proof.Machine.execOutRead a size s
  | .outWrite a size v => Sys2Proof.Machine.execOutWrite a size v s
  | .busError acc => Sys2Proof.Machine.execBusError acc s

end Sys2Proof.Machine
end

