-- ==== Sys2Proof/Machine/Fetch.lean ====
section
/-! DEFINITION. What the next step is: whose turn it is (20_memory.md R61), which element the engine's state expects
(10_state.md R39, 30_encoding.md R81) and the fetching of its selecting word. -/

namespace Sys2Proof.Machine

/-- What the next step does. -/
inductive Turned where
  /-- No agent moves: BUSY = 0 and no host access is due (60_exceptions.md R186). -/
  | quiet (s : State)
  /-- The reset input is pulsed (70_reset_and_hazards.md R187). -/
  | reset (s : State)
  /-- The FRAME_HDR step finds the session complete (45_frame_demux.md R145). -/
  | complete (s : State)
  /-- An element's selecting word, and the state with the word consumed. -/
  | element (w : Fetched) (s : State)
  /-- Fetching the word raised a session fault; `s` is the state the step began in. -/
  | raised (e : SessionError) (draws : Nat) (s : State)
  /-- The model refuses the step. -/
  | refused (r : Refusal)
  /-- No rule runs in this state. -/
  | stuck (f : Fault)

/-- The container word (40_container.md R85, checks in its order): the bytes after the signature are read only if it
matches and 10 bytes are present. -/
def fetchContainer (s : State) : Res Fetched :=
  if s.inLen < 3 then .raise .headerShort s.draws
  else
    let b0 := s.readIn 0
    let b1 := b0.2.readIn 1
    let b2 := b1.2.readIn 2
    let magic : BitVec 24 := b0.1 ++ b1.1 ++ b2.1
    if magic ≠ s.cfg.magicWord then .ok (.container (magic ++ 0#24)) b2.2
    else if s.inLen < 10 then .raise .headerShort b2.2.draws
    else
      let b3 := b2.2.readIn 3
      let b4 := b3.2.readIn 4
      let b5 := b4.2.readIn 5
      .ok (.container (magic ++ b3.1 ++ b4.1 ++ b5.1)) b5.2

/-- The first byte of the frame header at `S.in_pos`; two bytes must be present before it is read
(45_frame_demux.md R146). -/
def fetchFrame (s : State) : Res Fetched :=
  if s.inLen < s.sess.inPos + 2 then .raise .frameHeaderShort s.draws
  else
    let h0 := s.readIn s.sess.inPos
    .ok (.frame h0.1) h0.2

/-- A decoded main symbol (44_lzx_symbols.md R132). -/
def fetchMain (s : State) : Res Fetched :=
  (decodeSymbol .main s).bind fun m s => .ok (.mainSym (BitVec.ofNat 10 m)) s

/-- The word of the element that starts an engine step in the state `S.ds` (10_state.md R39); none where no rule family
runs. `s` has the step opened. -/
def fetchByState (s : State) : Option (Res Fetched) :=
  match s.sess.ds with
  | .idle => none
  | .container => some (fetchContainer s)
  | .rawCopy => some (.ok .rawPayload s)
  | .frameHdr => some (fetchFrame s)
  | .streamHdr => some ((readBits 1 s).bind fun v s => .ok (.stream (BitVec.ofNat 1 v)) s)
  | .blockHdr => some ((readBits 3 s).bind fun v s => .ok (.block (BitVec.ofNat 3 v)) s)
  | .decVerbatim => some (fetchMain s)
  | .decAligned => some (fetchMain s)
  | .decUncomp => some ((readByte s).bind fun b s => .ok (.rawByte b) s)
  | .done => none
  | .failed => none

/-- The word of the element an engine step in progress awaits; none where it awaits none. -/
def fetchByContext (c : Ctx) (s : State) : Option (Res Fetched) :=
  match c with
  | .started => none
  | .alignedLens _ => some (.ok .alignedLens s)
  | .pretree _ _ => some (.ok .pretree s)
  | .preSym _ _ _ => some ((decodeSymbol .pre s).bind fun z s => .ok (.preSym (BitVec.ofNat 5 z)) s)
  | .lenFooter _ => some (.ok (.lenFooter 7) s)
  | .alignedSym _ _ => some (.ok .alignedSym s)
  | .uncompAlignR _ => some (.ok .uncompBody s)
  | .oddPad => some (.ok .oddPad s)

/-- The outcome of fetching a word in a step that began in `s`. -/
def turnedOf (s : State) : Option (Res Fetched) → Turned
  | none => .stuck .noRule
  | some (.ok w s') => .element w s'
  | some (.raise e d) => .raised e d s
  | some (.refuse r) => .refused r

/-- The engine's turn (10_state.md R19, R39): nothing while BUSY = 0; in FRAME_HDR the completion test comes first
(45_frame_demux.md R145). -/
def engineTurn (s : State) : Turned :=
  if s.busy = false then .quiet s
  else if s.sess.ds = .frameHdr ∧ s.sess.produced = s.sess.decSize then .complete s
  else turnedOf s (fetchByState (begin s))

/-- Whose turn it is. An engine step in progress goes on before anything else (10_state.md R40: no access comes between
its parts); else the schedule says; with none left it is the engine's turn (70_reset_and_hazards.md R196). -/
def fetch (s : State) : Turned :=
  match s.pend with
  | some p => turnedOf s (fetchByContext p.ctx s)
  | none =>
    match s.sched with
    | [] => engineTurn s
    | .engine :: rest => engineTurn { s with sched := rest }
    | .rst :: rest => .reset { s with sched := rest }
    | .host a :: rest => .element (.host a) { s with sched := rest }

/-- The instruction a fetched word stands for, if it selects a row that the instance has. -/
def instrOf (p : Params) (w : Fetched) : Option Instr :=
  match decode p w with
  | .ok i => if i.wellFormed p then some i else none
  | .error _ => none

end Sys2Proof.Machine
end

