-- ==== Sys2Proof/Machine/Stage.lean ====
section
/-! DEFINITION. Placing one word where the next step fetches it: the loading of a program of one element from outside the
machine (log entry 13). The engine's elements are fetched by the state, so the state is set to expect the element: the
engine state or the step in progress, the frame's data, and for a Huffman-coded symbol a tree of two codes. -/

namespace Sys2Proof.Machine

/-- Writes bytes to a memory from an offset. -/
def putBytes : List Byte → Nat → Memory → Memory
  | [], _, m => m
  | b :: bs, a, m => putBytes bs (a + 1) (m.set a b)

/-- The 16-bit word of up to 16 stream bits, the first in bit 15, the missing ones 0 (20_memory.md R53). -/
def wordOfBits (bs : List Bool) : Nat :=
  (List.range 16).foldl (fun acc i => 2 * acc + (if bs.getD i false then 1 else 0)) 0

/-- Bytes of staged frame data: enough zeros for the longest operands. -/
def stagedLen : Nat := 32

/-- The frame's data becomes a first word of these bits and zeros; the reader stands at its start. -/
def stageBits (bs : List Bool) (s : State) : State :=
  let w := wordOfBits bs
  let data := BitVec.ofNat 8 w :: BitVec.ofNat 8 (w / 256) :: List.replicate (stagedLen - 2) 0
  { s with
    inp := putBytes data s.sess.frameBase s.inp
    inLen := max s.inLen (s.sess.frameBase + stagedLen)
    sess := { s.sess with frameLen := stagedLen, rdC := 0, rdQ := [] } }

/-- A length array of `n` entries whose only coded symbols are `sym` and one other, with 1-bit codes. -/
def pairTree (n sym : Nat) : List Nat :=
  (List.range n).map fun i => if i = sym ∨ i = (if sym = 0 then 1 else 0) then 1 else 0

/-- The code of `sym` in `pairTree`: the smaller symbol has the code 0 (42_huffman.md R107). -/
def pairCode (sym : Nat) : Bool := decide (sym ≠ 0)

/-- The engine runs next, in the engine state `d`. -/
def stageState (d : DState) (s : State) : State :=
  { s with busy := true, pend := none, sched := [], sess := { s.sess with ds := d } }

/-- The engine runs next, in a step that awaits `c`. -/
def stageContext (d : DState) (c : Ctx) (s : State) : State :=
  let s := stageState d s
  { s with pend := some ⟨s.sess, c⟩ }

/-- A block and a frame with bytes still owed, of the block type `t`. -/
def stageBlock (t : BitVec 3) (s : State) : State :=
  { s with sess := { s.sess with blockType := t, blockLen := 258, blockRem := 258, frameRem := 258 } }

/-- The instance has the position slot of a main symbol: the widest window, if the present one has not. -/
def stageSlots (m : Nat) (s : State) : State :=
  if m < s.cfg.mainElements then s else { s with cfg := { s.cfg with windowBits := 18 } }

/-- The state in which the next step fetches the word `w`. -/
def stage (w : Fetched) (s : State) : State :=
  match w with
  | .container v =>
    let s := stageState .container s
    let bytes := (List.range 6).map fun i => BitVec.ofNat 8 (v.toNat / 256 ^ (5 - i))
    { s with inp := putBytes (bytes ++ List.replicate 8 0) 0 s.inp, inLen := 14 }
  | .rawPayload => stageState .rawCopy s
  | .frame h0 =>
    let s := stageState .frameHdr s
    { s with
      inp := putBytes [h0, 0, 0, 0, 0] s.sess.inPos s.inp
      inLen := max s.inLen (s.sess.inPos + 5)
      sess := { s.sess with decSize := s.sess.produced + 1 } }
  | .stream e8 => stageBits [e8.getLsbD 0] (stageState .streamHdr s)
  | .block t => stageBits [t.getLsbD 2, t.getLsbD 1, t.getLsbD 0] (stageState .blockHdr s)
  | .alignedLens => stageContext .blockHdr (.alignedLens ⟨2, 0⟩) (stageBits [] s)
  | .pretree => stageContext .blockHdr (.pretree ⟨1, 0⟩ .mainLow) (stageBits [] s)
  | .preSym z =>
    let s := stageBits [pairCode z.toNat] s
    let s := { s with sess := { s.sess with preLen := pairTree Config.pretreeSymbols z.toNat } }
    stageContext .blockHdr (.preSym ⟨1, 0⟩ .mainLow 0) s
  | .mainSym m =>
    let s := stageSlots m.toNat (stageBlock 1 (stageBits [pairCode m.toNat] s))
    let s := { s with sess := { s.sess with mainLen := pairTree s.cfg.mainElements m.toNat } }
    stageState .decVerbatim s
  | .lenFooter _ =>
    let s := stageBlock 1 (stageBits [] s)
    let s := { s with sess := { s.sess with lenLen := pairTree Config.lengthSymbols 0 } }
    stageContext .decVerbatim (.lenFooter 0) s
  | .alignedSym =>
    let s := stageBlock 2 (stageBits [] s)
    let s := { s with sess := { s.sess with alLen := pairTree Config.alignedSymbols 0 } }
    stageContext .decAligned (.alignedSym 8 2) s
  | .uncompBody => stageContext .blockHdr (.uncompAlignR ⟨3, 0⟩) (stageBits [] s)
  | .rawByte b =>
    let s := stageBlock 3 (stageBits [] s)
    stageState .decUncomp { s with inp := s.inp.set s.sess.frameBase b }
  | .oddPad => stageContext .decUncomp .oddPad (stageBits [] s)
  | .host a => { s with pend := none, sched := .host a :: s.sched }

/-- The state in which the next step fetches the table word `w` of `nbits` bits (log entries 13 and 14). -/
def stageTableWord (s : State) (nbits w : Nat) : State := stage (fetchedOfTableWord nbits w) s

end Sys2Proof.Machine
end

