-- ==== Sys2Proof/Machine/Step.lean ====
section
/-! DEFINITION. The step of the machine, and the placing of a word where the step fetches it. -/

namespace Sys2Proof.Machine

/-- One step: one host access, one element of the engine, the end of a session, a reset, or nothing. -/
def step (s : State) : Host.Outcome State Fault Refusal :=
  if s.cfg.valid = false then .refused .noSuchInstance
  else
    match fetch s with
    | .quiet s' => .next s'
    | .reset s' => .next (hardReset s')
    | .complete s' => .next (endDone s')
    | .element w s' =>
      match instrOf s'.cfg w with
      | some i => exec i s'
      | none => .refused .undecodable
    | .raised e d s' => .next (takeFault e d (begin s'))
    | .refused r => .refused r
    | .stuck f => .fault f

/-- The state whose next step fetches and runs the table word `w` (log entry 13). -/
def State.withFetchWord (s : State) (nbits w : Nat) : State := stageTableWord s nbits w

end Sys2Proof.Machine
end

