-- ==== Sys2Proof/Safety.lean ====
section
/-! DEFINITION. What a legal state is, and what the agents may see and touch: the terms the statements use. -/

namespace Sys2Proof.Machine

/-! ## Legal states -/

/-- A length array a tree may be decoded from: complete or empty (42_huffman.md R106, R108). -/
def builtLens (ls : List Nat) : Bool := kraft ls == 65536 || kraft ls == 0

/-- A length array of `n` entries, none above `m` (10_state.md R44). -/
def lensOk (n m : Nat) (ls : List Nat) : Bool := ls.length == n && ls.all fun l => decide (l ≤ m)

/-- The session variables have the sizes and ranges of 10_state.md R38 and R44, and the window its canonical form. -/
def sessionShape (p : Params) (t : Session) : Bool :=
  lensOk p.mainElements 16 t.mainLen && lensOk Config.lengthSymbols 16 t.lenLen
    && lensOk Config.alignedSymbols 7 t.alLen && lensOk Config.pretreeSymbols 15 t.preLen
    && t.win.wf && t.win.below p.windowSize
    && decide (t.wpos < p.windowSize) && decide (t.written ≤ p.windowSize)
    && decide (t.rdQ.length ≤ 31)

/-- The shape of both the live session and, inside an engine step, the committed one. -/
def shapeOk (s : State) : Bool :=
  sessionShape s.cfg s.sess
    && (match s.pend with
        | none => true
        | some p => sessionShape s.cfg p.base)

/-- `IN` and `OUT` are in canonical form and inside their capacities (20_memory.md R48); IN_LEN is legal (10_state.md R26). -/
def memoriesOk (s : State) : Bool :=
  s.inp.wf && s.inp.below s.cfg.inCap && s.out.wf && s.out.below s.cfg.outCap
    && decide (s.inLen ≤ s.cfg.inCap)

/-- The three repeated-offset registers of a session (10_state.md R41). -/
def Session.regs (t : Session) : Word × Word × Word := (t.r0, t.r1, t.r2)

/-- An engine step in progress has written neither `S.ds` nor the registers: its last element does
(00_scope.md R13, 10_state.md R41). -/
def pendOk (s : State) : Bool :=
  match s.pend with
  | none => true
  | some p => p.base.ds == s.sess.ds && p.base.regs == s.sess.regs

/-- The status bits (10_state.md R23): DONE and FAILED never together, neither while BUSY; an engine step is in
progress only while BUSY (R19). -/
def statusOk (s : State) : Bool :=
  !(s.done && s.failed) && !(s.busy && s.done) && !(s.busy && s.failed)
    && (s.pend.isNone || s.busy)

/-- The block type of a block under way is one that its DEC_ state decodes, and its trees are built. -/
def blockOk (t : Session) : Bool :=
  t.blockRem == 0
    || ((t.blockType == 1 || t.blockType == 2 || t.blockType == 3)
      && (t.blockType == 3 || (builtLens t.mainLen && builtLens t.lenLen))
      && (t.blockType != 2 || builtLens t.alLen))

/-- The output still owed fits the declared size, and that fits `OUT`; the frame's data lies below IN_LEN. -/
def owedOk (s : State) (t : Session) : Bool :=
  decide (t.produced + t.frameRem ≤ t.decSize) && decide (t.decSize ≤ s.cfg.outCap)
    && decide (t.frameBase + t.frameLen ≤ s.inLen)

/-- What the engine state says of the session while no step is in progress (10_state.md R39). -/
def stateOk (t : Session) : Bool :=
  match t.ds with
  | .idle => false
  | .container => t.blockRem == 0 && !t.headerRead && t.frameRem == 0 && t.produced == 0 && t.decSize == 0
  | .rawCopy => t.blockRem == 0 && t.frameRem == 0 && t.produced == 0
  | .frameHdr => t.frameRem == 0 && (t.headerRead || t.blockRem == 0)
  | .streamHdr => t.blockRem == 0 && t.frameRem != 0 && !t.headerRead
  | .blockHdr => t.blockRem == 0 && t.frameRem != 0 && t.headerRead
  | .decVerbatim => t.blockType == 1 && t.blockRem != 0 && t.frameRem != 0 && t.headerRead
  | .decAligned => t.blockType == 2 && t.blockRem != 0 && t.frameRem != 0 && t.headerRead
  | .decUncomp => t.blockType == 3 && t.blockRem != 0 && t.frameRem != 0 && t.headerRead
  | .done => false
  | .failed => false

/-- A header whose trees are being read, in the pass `p`: its type, and the trees already built. -/
def treeHdrOk (h : BlockHdr) (p : Pass) (t : Session) : Bool :=
  t.ds == .blockHdr && t.blockRem == 0 && t.frameRem != 0 && t.headerRead
    && (h.type == 1 || (h.type == 2 && builtLens t.alLen))
    && (p != .lengths || builtLens t.mainLen)

/-- What an engine step in progress says of the session. -/
def ctxOk (s : State) (c : Ctx) (t : Session) : Bool :=
  match c with
  | .started => false
  | .alignedLens h => t.ds == .blockHdr && t.blockRem == 0 && t.frameRem != 0 && t.headerRead && h.type == 2
  | .pretree h p => treeHdrOk h p t
  | .preSym h p _ => treeHdrOk h p t && builtLens t.preLen
  | .lenFooter slot =>
    (t.ds == .decVerbatim || t.ds == .decAligned) && stateOk t && decide (slot < s.cfg.numPositionSlots)
  | .alignedSym slot _ =>
    t.ds == .decAligned && stateOk t && decide (3 ≤ slot) && decide (slot < s.cfg.numPositionSlots)
  | .uncompAlignR h => t.ds == .blockHdr && t.blockRem == 0 && t.frameRem != 0 && t.headerRead && h.type == 3
  | .oddPad => t.ds == .decUncomp && t.blockType == 3 && t.blockRem == 0 && t.headerRead

/-- While BUSY, the session is one that the step rules reach. -/
def liveOk (s : State) : Bool :=
  !s.busy
    || (blockOk s.sess && owedOk s s.sess
      && (match s.pend with
          | none => stateOk s.sess
          | some p => ctxOk s p.ctx s.sess))

/-- The invariant of the machine: an instance that exists, in a legal state. -/
def legal (s : State) : Bool :=
  s.cfg.valid && memoriesOk s && shapeOk s && pendOk s && statusOk s && liveOk s

/-- Every window cell within the last `written` bytes holds a byte (10_state.md R45). -/
def sessionHistory (p : Params) (t : Session) : Prop :=
  t.wpos < p.windowSize ∧ t.written ≤ p.windowSize ∧
    ∀ j, j < t.written → (t.win.get? (windowIndex t.wpos (j + 1) p.windowSize)).isSome = true

/-- The history law for the live and the committed session. -/
def historyOk (s : State) : Prop :=
  sessionHistory s.cfg s.sess ∧ ∀ p, s.pend = some p → sessionHistory s.cfg p.base

/-- With UNCOMP_ODD_PAD = 1 the cursor of a session is even (20_memory.md R54, 41_bit_reader.md R98, R100), but for the data
of an Uncompressed block. A block that began in the present frame began its data at an even cursor; the block under way at
a frame header has bytes behind it. -/
def cursorEven (t : Session) : Prop :=
  (t.rdC % 2 = 1 → t.blockType = 3 ∧ t.blockRem ≠ 0)
    ∧ (t.blockType = 3 → t.blockRem ≠ 0 → t.blockRem ≤ t.blockLen
      ∧ (t.ds = .frameHdr → t.blockRem < t.blockLen)
      ∧ (t.blockLen - t.blockRem ≤ t.frameSize - t.frameRem → t.rdC % 2 = (t.blockLen - t.blockRem) % 2))

/-- The cursor law of the committed session and of the live one; a step that awaits the pad byte of a block that began in the
present frame stands at an odd cursor. -/
def cursorOk (s : State) : Prop :=
  s.cfg.oddPad = true →
    cursorEven s.seen ∧ (awaited s ≠ .oddPad → cursorEven s.sess)
      ∧ (awaited s = .oddPad → s.sess.blockLen ≤ s.sess.frameSize - s.sess.frameRem → s.sess.rdC % 2 = 1)

/-! ## Agents and what they touch -/

/-- The rows that are host accesses (46_host_interface.md); the others are elements of the engine. -/
def isHost : Instr → Bool
  | .csrRead _ => true
  | .csrWrite _ _ => true
  | .start _ => true
  | .softReset _ => true
  | .irqEn _ => true
  | .w1c _ => true
  | .inLen _ => true
  | .inWrite _ _ _ => true
  | .inRead _ _ => true
  | .outRead _ _ => true
  | .outWrite _ _ _ => true
  | .busError _ => true
  | _ => false

/-- What no element of the engine touches: the parameters, `IN` and IN_LEN, the host's controls, the bus side
(20_memory.md R49, 10_state.md R22 to R26). -/
def hostSideKept (s t : State) : Prop :=
  t.cfg = s.cfg ∧ t.inp = s.inp ∧ t.inLen = s.inLen ∧ t.irqEn = s.irqEn ∧ t.cmdIgnored = s.cmdIgnored
    ∧ t.sched = s.sched ∧ t.resp = s.resp ∧ t.busErr = s.busErr

/-- What no host access touches but START and SOFT_RESET: the session, the results, `OUT`
(46_host_interface.md R155, R156, R160). -/
def engineSideKept (s t : State) : Prop :=
  t.cfg = s.cfg ∧ t.sess = s.sess ∧ t.pend = s.pend ∧ t.out = s.out ∧ t.busy = s.busy ∧ t.e8Present = s.e8Present
    ∧ t.compressed = s.compressed ∧ t.errCause = s.errCause ∧ t.errDetail = s.errDetail ∧ t.errPos = s.errPos
    ∧ t.outLen = s.outLen ∧ t.hdrPlatform = s.hdrPlatform ∧ t.hdrVersion = s.hdrVersion ∧ t.hdrFlags = s.hdrFlags
    ∧ t.hdrFileSize = s.hdrFileSize ∧ t.hdrDecSize = s.hdrDecSize ∧ t.e8FileSize = s.e8FileSize ∧ t.sched = s.sched

/-! ## The bit reader and the trees -/

/-- `t` differs from `s` at most in the count of draws: all that reading a memory can do (20_memory.md R57). -/
def drawsOnly (s t : State) : Prop := t = { s with draws := t.draws }

/-- `t` differs from `s` at most in the bit reader's cursor and accumulator and the count of draws. -/
def readerOnly (s t : State) : Prop :=
  t = { s with sess := { s.sess with rdC := t.sess.rdC, rdQ := t.sess.rdQ }, draws := t.draws }

/-- Bits consumed or discarded since the reader was started (41_bit_reader.md R102). -/
def readerProgress (t : Session) : Int := 8 * (t.rdC : Int) - (t.rdQ.length : Int)

/-- Where `align16` leaves the cursor (41_bit_reader.md R98): a reader with nothing buffered drops the next whole word; one
in the middle or at the start of its last word drops the rest of that word; one with a whole word more gives it back. -/
def alignedCursor (t : Session) : Nat :=
  if t.rdQ.length = 0 then t.rdC + 2
  else if t.rdQ.length ≤ 16 then t.rdC
  else t.rdC - 2

/-- Symbol `j` is coded and comes before symbol `i` in the canonical order (42_huffman.md R107). -/
def codedBefore (lens : List Nat) (j i : Nat) : Bool :=
  decide (0 < lens.getD j 0)
    && (decide (lens.getD j 0 < lens.getD i 0) || (decide (lens.getD j 0 = lens.getD i 0) && decide (j < i)))

/-- `lo_T(i)`: the code space taken by the symbols before `i` (42_huffman.md R107). -/
def canonLow (lens : List Nat) (i : Nat) : Nat :=
  ((List.range lens.length).map fun j => if codedBefore lens j i then 2 ^ (16 - lens.getD j 0) else 0).sum

/-- `v` lies in the interval `lo_T(i) .. hi_T(i)` of the coded symbol `i` (42_huffman.md R107). -/
def inInterval (lens : List Nat) (i v : Nat) : Prop :=
  0 < lens.getD i 0 ∧ canonLow lens i ≤ v ∧ v < canonLow lens i + 2 ^ (16 - lens.getD i 0)

/-! ## Results of elements -/

/-- `t` is `s` after the session fault `e` (60_exceptions.md R174, R175): the committed session with `S.ds` = FAILED, the
record of the fault, nothing else. -/
def faulted (e : SessionError) (s t : State) : Prop :=
  t = { s with
    sess := { s.seen with ds := .failed }
    pend := none
    errCause := e.cause
    errDetail := e.detail
    errPos :=
      if s.seen.ds = .container ∨ s.seen.ds = .rawCopy then 0
      else if s.seen.ds = .frameHdr then s.seen.inPos
      else s.seen.fhdrPos
    outLen := 0
    busy := false
    failed := true
    draws := t.draws }

/-- The state `S.ds` and the input position after an element that leaves `blockRem` and `frameRem`
(44_lzx_symbols.md R130, 45_frame_demux.md R149). -/
def afterCounts (t : Session) (blockRem frameRem : Nat) : DState × Nat :=
  if frameRem = 0 then (.frameHdr, t.frameBase + t.frameLen)
  else if blockRem = 0 then (.blockHdr, t.inPos)
  else (t.ds, t.inPos)

/-- The window cell that byte `k` of a copy from offset `off` repeats: the copy's source has the period `off`
(44_lzx_symbols.md R141). -/
def copySource (p : Params) (t : Session) (off k : Nat) : Nat :=
  (t.wpos + p.windowSize - off + k % off) % p.windowSize

/-- `t` is `s` after a committed match of length `len` and offset `off` that leaves the registers `r`
(44_lzx_symbols.md R130, R132, R141): every field, every byte of `OUT` and every window cell. -/
def matched (len off : Nat) (r : Word × Word × Word) (s t : State) : Prop :=
  t = { s with
      pend := none
      out := t.out
      sess := { s.sess with
        win := t.sess.win
        wpos := (s.sess.wpos + len) % s.cfg.windowSize
        written := min (s.sess.written + len) s.cfg.windowSize
        produced := s.sess.produced + len
        blockRem := s.sess.blockRem - len
        frameRem := s.sess.frameRem - len
        r0 := r.1
        r1 := r.2.1
        r2 := r.2.2
        ds := (afterCounts s.sess (s.sess.blockRem - len) (s.sess.frameRem - len)).1
        inPos := (afterCounts s.sess (s.sess.blockRem - len) (s.sess.frameRem - len)).2 } }
    ∧ (∀ a, t.out.get? a =
        if s.sess.produced ≤ a ∧ a < s.sess.produced + len then
          s.sess.win.get? (copySource s.cfg s.sess off (a - s.sess.produced))
        else s.out.get? a)
    ∧ (∀ k, k < len → t.sess.win.get? ((s.sess.wpos + k) % s.cfg.windowSize) = t.out.get? (s.sess.produced + k))
    ∧ (∀ j, (∀ k, k < len → j ≠ (s.sess.wpos + k) % s.cfg.windowSize) →
        t.sess.win.get? j = s.sess.win.get? j)

/-- The conditions under which `check(L, off)` passes (44_lzx_symbols.md R140). -/
def matchAllowed (len off : Nat) (s : State) : Prop :=
  len ≤ s.sess.blockRem ∧ len ≤ s.sess.frameRem ∧ 0 < off ∧ off ≤ s.cfg.windowSize ∧ off ≤ s.sess.written

/-- The registers after a match of a slot and offset (44_lzx_symbols.md R135 to R138, R142). -/
def matchRegs (mode : Slot2Mode) (slot off : Nat) (r : Word × Word × Word) : Word × Word × Word :=
  if slot = 0 then r
  else if slot = 1 then (r.2.1, r.1, r.2.2)
  else if slot = 2 then
    match mode with
    | .swap => (r.2.2, r.2.1, r.1)
    | .rotate => (r.2.2, r.1, r.2.1)
  else (BitVec.ofNat 32 off, r.1, r.2.1)

/-- The offset of a match of a slot, from the state `s` that has its length: a register, or a plain footer, after which
the state is `s1` (44_lzx_symbols.md R135 to R138). -/
def offsetRead (slot : Nat) (s : State) (off : Nat) (s1 : State) : Prop :=
  (slot = 0 ∧ off = s.sess.r0.toNat ∧ s1 = s)
    ∨ (slot = 1 ∧ off = s.sess.r1.toNat ∧ s1 = s)
    ∨ (slot = 2 ∧ off = s.sess.r2.toNat ∧ s1 = s)
    ∨ (3 ≤ slot ∧ ¬(s.sess.blockType = 2 ∧ 3 ≤ extraBits slot)
        ∧ ∃ v, readBits (extraBits slot) s = .ok v s1 ∧ off = slotBase slot - 2 + v)

/-- `i`, run in `s`, is the element that completes a match of this slot, length and offset, its footers read when the
state is `s1`: the match symbol itself, its length footer, or its aligned offset footer (44_lzx_symbols.md R134 to R139). -/
def matchOperands (i : Instr) (s : State) (slot len off : Nat) (s1 : State) : Prop :=
  (∃ lh, Instr.ofSlot slot lh = some i ∧ lh ≠ 7 ∧ len = lh.toNat + 2 ∧ offsetRead slot (begin s) off s1)
    ∨ (i = .lenFooter ∧ awaited s = .lenFooter slot
        ∧ ∃ v s0, decodeSymbol .len (begin s) = .ok v s0 ∧ len = 9 + v ∧ offsetRead slot s0 off s1)
    ∨ (i = .alignedSym ∧ awaited s = .alignedSym slot len ∧ 3 ≤ slot
        ∧ ∃ hi a s0, readBits (extraBits slot - 3) (begin s) = .ok hi s0 ∧ decodeSymbol .aligned s0 = .ok a s1
          ∧ off = slotBase slot - 2 + hi * 8 + a)

/-- `t` is `s` after a frame header at `a`, of `hl` bytes, was accepted (45_frame_demux.md R148, R150): the reader starts
on the frame's data; the block under way, the trees, the registers and the window are as they were. -/
def frameStarted (a hl bs fs : Nat) (s t : State) : Prop :=
  t = { s with
      pend := none
      draws := t.draws
      sess := { s.sess with
        fhdrPos := a
        frameBase := a + hl
        frameLen := bs
        rdC := 0
        rdQ := []
        frameSize := fs
        frameRem := fs
        frameCount := s.sess.frameCount + 1
        ds := t.sess.ds } }
    ∧ (s.sess.headerRead = false → t.sess.ds = .streamHdr)
    ∧ (s.sess.headerRead = true → s.sess.blockRem = 0 → t.sess.ds = .blockHdr)
    ∧ (s.sess.headerRead = true → s.sess.blockRem ≠ 0 → decStateOf s.sess.blockType = some t.sess.ds)

/-- The run of entries that a pretree symbol writes at entry `x` of a pass: `k` entries of the value `v`, its footers read
when the state is `s1` (43_lzx_blocks.md R125 to R128). -/
def preRun (p : Pass) (x : Nat) (i : Instr) (s : State) (k v : Nat) (s1 : State) : Prop :=
  match i with
  | .preDelta z => k = 1 ∧ (v : Int) = (((p.arr s).getD x 0 : Int) - z.toNat) % 17 ∧ s1 = begin s
  | .preZeroShort => ∃ f, readBits 4 (begin s) = .ok f s1 ∧ k = f + 4 ∧ v = 0
  | .preZeroLong => ∃ f, readBits 5 (begin s) = .ok f s1 ∧ k = f + 20 ∧ v = 0
  | .preRepeat =>
    ∃ f z2 s0, readBits 1 (begin s) = .ok f s0 ∧ decodeSymbol .pre s0 = .ok z2 s1 ∧ z2 ≤ 16 ∧ k = f + 4
      ∧ (v : Int) = (((p.arr s).getD x 0 : Int) - z2) % 17
  | _ => False

/-- `arr` is the pass's array of `s` with entries `x .. x+k-1` set to `v`. -/
def runWritten (p : Pass) (x k v : Nat) (s : State) (arr : List Nat) : Prop :=
  arr.length = (p.arr s).length
    ∧ ∀ j, j < arr.length → arr.getD j 0 = if x ≤ j ∧ j < x + k then v else (p.arr s).getD j 0

/-- `t` is the end of a pass that leaves `s1` (43_lzx_blocks.md R122, R115): the next pass is awaited, or the block header
is complete; `s` is the state the element began in, for the fault of a tree that is neither complete nor empty. -/
def passEnded (h : BlockHdr) (p : Pass) (s s1 t : State) : Prop :=
  match p with
  | .mainLow => t = { s1 with pend := some ⟨s.seen, .pretree h .mainHigh⟩ }
  | .mainHigh =>
    if kraft s1.sess.mainLen = 65536 ∨ kraft s1.sess.mainLen = 0 then
      t = { s1 with pend := some ⟨s.seen, .pretree h .lengths⟩ }
    else faulted .maintreeInvalid s t
  | .lengths =>
    if kraft s1.sess.lenLen = 65536 ∨ kraft s1.sess.lenLen = 0 then
      t = { s1 with
        pend := none
        sess := { s1.sess with
          blockType := h.type
          blockLen := h.len
          blockRem := h.len
          ds := if h.len = 0 then .blockHdr else if h.type = 2 then .decAligned else .decVerbatim } }
    else faulted .lentreeInvalid s t

/-! ## Host reads -/

/-- How many of the `k` cells from `a` hold no byte: each read of one is a draw (20_memory.md R49). -/
def unwritten (m : Memory) (a k : Nat) : Nat := ((List.range k).filter fun i => (m.get? (a + i)).isNone).length

/-- The `IN` access at `a` is one the aperture admits (20_memory.md R55, R59; 46_host_interface.md R165). -/
def inAdmitted (s : State) (a : Nat) (size : Size) : Prop :=
  s.busy = false ∧ (size = .b8 ∨ size = .b32 ∧ a % 4 = 0) ∧ a + size.bytes ≤ s.cfg.inCap

/-- The `OUT` read at `a` is one the aperture admits (20_memory.md R55, R59; 46_host_interface.md R165). -/
def outAdmitted (s : State) (a : Nat) (size : Size) : Prop :=
  s.busy = false ∧ (size = .b8 ∨ size = .b32 ∧ a % 4 = 0) ∧ a + size.bytes ≤ s.cfg.outCap

/-! ## Runs -/

/-- Two states of runs that differ only in what no run depends on: `IN` outside the file, the unread part of `OUT`, the
host's controls, the bus side and the count of draws (60_exceptions.md R177). -/
def sameRun (s t : State) : Prop :=
  t = { s with
      inp := t.inp
      out := t.out
      irqEn := t.irqEn
      cmdIgnored := t.cmdIgnored
      sched := t.sched
      resp := t.resp
      busErr := t.busErr
      draws := t.draws }
    ∧ ∀ a, a < s.sess.produced → t.out.get? a = s.out.get? a

/-- Runs of the machine: `k` steps (Host/Core.lean). -/
abbrev runSteps (k : Nat) (s : State) : Host.Outcome State Fault Refusal :=
  Host.Core.run Sys2Proof.core k s

/-- The rows of 60_exceptions.md R171: CAUSE, DETAIL, and the states the fault is raised in. -/
def faultRows : List (Nat × Nat × List DState) :=
  [(1, 0x01, [.container]), (1, 0x02, [.container]), (1, 0x03, [.frameHdr]),
   (1, 0x04, [.decVerbatim, .decAligned]), (1, 0x05, [.decVerbatim, .decAligned]),
   (1, 0x06, [.decVerbatim, .decAligned]),
   (2, 0x01, [.container]), (2, 0x02, [.frameHdr]), (2, 0x03, [.frameHdr]), (2, 0x04, [.frameHdr]),
   (2, 0x05, [.streamHdr, .blockHdr, .decVerbatim, .decAligned]),
   (2, 0x06, [.blockHdr, .decUncomp]), (2, 0x07, [.decVerbatim, .decAligned]),
   (3, 0x01, [.blockHdr]), (3, 0x02, [.blockHdr]), (3, 0x03, [.blockHdr]), (3, 0x04, [.blockHdr]),
   (3, 0x05, [.blockHdr]), (3, 0x06, [.blockHdr]), (3, 0x11, [.blockHdr]),
   (3, 0x12, [.decVerbatim, .decAligned]), (3, 0x13, [.decVerbatim, .decAligned]), (3, 0x14, [.decAligned]),
   (4, 0, [.blockHdr]), (4, 4, [.blockHdr]), (4, 5, [.blockHdr]), (4, 6, [.blockHdr]), (4, 7, [.blockHdr])]

end Sys2Proof.Machine
end

