-- ==== Sys2Proof/Certificates/Slice0/Obligations.lean ====
section
/-! DEFINITION. The statements for the provers: what the rules of spec/ say of this machine. OBLIGATIONS.json lists them. -/

open Sys2Proof Sys2Proof.Machine

/-! ## Encoding and fetch -/

/-- Decoding an encoded well-formed instruction gives it back, with every operand at every value (30_encoding.md R82). -/
def Obligations.DecodeEncode : Prop :=
  ∀ (p : Params) (i : Instr), i.wellFormed p = true → decode p (encode p i) = .ok i

/-- What the decoder accepts is well-formed, and is the reading of that word alone. The words that no fetch gives are left
out: a main symbol the instance lacks, a container word of a bad signature with its unread bytes not 0. -/
def Obligations.DecodedWords : Prop :=
  ∀ (p : Params) (w : Fetched) (i : Instr),
    (∀ m, w = .mainSym m → m.toNat < p.mainElements) →
    (∀ v, w = .container v → v.extractLsb' 24 24 ≠ p.magicWord → v.extractLsb' 0 24 = 0) →
    decode p w = .ok i → i.wellFormed p = true ∧ encode p i = w

/-- Words written out from the tables of 30_encoding.md, one or more for each family, and what they stand for on the
default instance. -/
def Obligations.SampleWords : Prop :=
  decode Params.default (.container 0x584E42770580) = .ok (.contCompressed 0x77 0x05 0x80)
    ∧ decode Params.default (.container 0x584E42770500) = .ok (.contRaw 0x77 0x05 0x00)
    ∧ decode Params.default (.container 0x414243000000) = .ok (.contBadmagic 0x414243)
    ∧ decode Params.default (.frame 0x12) = .ok (.frameStd 0x12)
    ∧ decode Params.default (.frame 0xFF) = .ok .frameExt
    ∧ decode Params.default (.stream 1) = .ok .e8On
    ∧ decode Params.default (.block 0b011) = .ok .blkUncomp
    ∧ decode Params.default (.block 0b101) = .ok (.blkInvalid 5)
    ∧ decode Params.default (.preSym 16) = .ok (.preDelta 16)
    ∧ decode Params.default (.preSym 17) = .ok .preZeroShort
    ∧ decode Params.default (.preSym 20) = .error .noSuchPretreeSymbol
    ∧ decode Params.default (.mainSym 0x041) = .ok (.mainLiteral 0x41)
    ∧ decode Params.default (.mainSym 0x126) = .ok (.matchS4 6)
    ∧ decode Params.default (.host (.write 0x00000004 .b32 3)) = .ok (.softReset 3)
    ∧ decode Params.default (.host (.read 0x00100001 .b8)) = .ok (.inRead 1 .b8)
    ∧ decode Params.default (.host (.read 0x00000002 .b32)) = .ok (.busError (.read 0x00000002 .b32))

/-- A step runs the decoded instruction: where the fetched word decodes to a well-formed instruction `i`, the step is `exec`
of `i` in the state the fetch leaves. The fetch has moved the bit reader behind the word, counted its draws, taken the
turn off the schedule and opened the engine's step, and nothing else; the committed session is as before. -/
def Obligations.StepRunsDecoded : Prop :=
  ∀ (s s' : State) (w : Fetched) (i : Instr), s.cfg.valid = true → fetch s = .element w s' →
    decode s'.cfg w = .ok i → i.wellFormed s'.cfg = true →
    step s = exec i s'
      ∧ s' = { s with
          sess := { s.sess with rdC := s'.sess.rdC, rdQ := s'.sess.rdQ }
          pend := s'.pend
          sched := s'.sched
          draws := s'.draws }
      ∧ s'.seen = s.seen ∧ (s.pend ≠ none → s'.pend = s.pend ∧ s'.sched = s.sched)

/-- Which word is fetched, by the engine state and by the element awaited (10_state.md R39, 30_encoding.md R81): the
selectors are read by the reader's own primitives, in the state with the step opened. A step whose selector cannot be
read enters FAILED with the fault that the read names (41_bit_reader.md R96, R99, 42_huffman.md R109, 45_frame_demux.md
R146). -/
def Obligations.FetchSelects : Prop :=
  (∀ s : State, s.busy = true → s.pend = none → s.sched = [] →
      (s.sess.ds = .rawCopy → fetch s = .element .rawPayload (begin s))
      ∧ (s.sess.ds = .frameHdr → s.sess.produced ≠ s.sess.decSize → s.sess.inPos + 2 ≤ s.inLen →
          fetch s = .element (.frame ((begin s).readIn s.sess.inPos).1) ((begin s).readIn s.sess.inPos).2)
      ∧ (s.sess.ds = .streamHdr → ∀ v t, readBits 1 (begin s) = .ok v t →
          fetch s = .element (.stream (BitVec.ofNat 1 v)) t)
      ∧ (s.sess.ds = .blockHdr → ∀ v t, readBits 3 (begin s) = .ok v t →
          fetch s = .element (.block (BitVec.ofNat 3 v)) t)
      ∧ (s.sess.ds = .decVerbatim ∨ s.sess.ds = .decAligned → ∀ m t, decodeSymbol .main (begin s) = .ok m t →
          fetch s = .element (.mainSym (BitVec.ofNat 10 m)) t)
      ∧ (s.sess.ds = .decUncomp → ∀ b t, readByte (begin s) = .ok b t → fetch s = .element (.rawByte b) t))
    ∧ (∀ (s : State) (b : Session),
      (∀ h, s.pend = some ⟨b, .alignedLens h⟩ → fetch s = .element .alignedLens s)
      ∧ (∀ h p, s.pend = some ⟨b, .pretree h p⟩ → fetch s = .element .pretree s)
      ∧ (∀ h p x, s.pend = some ⟨b, .preSym h p x⟩ → ∀ z t, decodeSymbol .pre s = .ok z t →
          fetch s = .element (.preSym (BitVec.ofNat 5 z)) t)
      ∧ (∀ slot, s.pend = some ⟨b, .lenFooter slot⟩ → fetch s = .element (.lenFooter 7) s)
      ∧ (∀ slot len, s.pend = some ⟨b, .alignedSym slot len⟩ → fetch s = .element .alignedSym s)
      ∧ (∀ h, s.pend = some ⟨b, .uncompAlignR h⟩ → fetch s = .element .uncompBody s)
      ∧ (s.pend = some ⟨b, .oddPad⟩ → fetch s = .element .oddPad s))
    ∧ (∀ s : State, s.cfg.valid = true → s.busy = true → s.pend = none → s.sched = [] →
      let fails (e : SessionError) := ∃ t, step s = .next t ∧ faulted e s t
      (s.sess.ds = .frameHdr → s.sess.produced ≠ s.sess.decSize → s.inLen < s.sess.inPos + 2 →
          fails .frameHeaderShort)
      ∧ (s.sess.ds = .streamHdr → ∀ e d, readBits 1 (begin s) = .raise e d → fails .bitsExhausted)
      ∧ (s.sess.ds = .blockHdr → ∀ e d, readBits 3 (begin s) = .raise e d → fails .bitsExhausted)
      ∧ (s.sess.ds = .decVerbatim ∨ s.sess.ds = .decAligned →
          (kraft s.sess.mainLen = 0 → fails .maintreeEmpty)
          ∧ (kraft s.sess.mainLen ≠ 0 → ∀ e d, decodeSymbol .main (begin s) = .raise e d → fails .bitsExhausted))
      ∧ (s.sess.ds = .decUncomp → s.sess.frameLen ≤ s.sess.rdC → fails .bytesExhausted))
    ∧ ∀ (s : State) (b : Session) (h : BlockHdr) (p : Pass) (x : Nat), s.cfg.valid = true →
      s.pend = some ⟨b, .preSym h p x⟩ →
      (kraft s.sess.preLen = 0 → ∃ t, step s = .next t ∧ faulted .pretreeEmpty s t)
      ∧ (kraft s.sess.preLen ≠ 0 → ∀ e d, decodeSymbol .pre s = .raise e d →
          ∃ t, step s = .next t ∧ faulted .bitsExhausted s t)

/-! ## Invariants and progress -/

/-- Every instance that exists is legal after reset. That the session variables which 10_state.md R47 leaves unspecified have
the sizes and ranges of R44 and R45 then is the model's choice (log entry 7). -/
def Obligations.ResetLegal : Prop :=
  legal State.reset = true ∧ ∀ p : Params, p.valid = true → legal (State.resetOf p) = true

/-- Every step from a legal state ends in a legal one: the memories keep their canonical form and stay inside their
capacities, the arrays keep their sizes and ranges, DONE, FAILED and BUSY exclude one another (10_state.md R23), the
block under way has a type and built trees, the output still owed fits. -/
def Obligations.StepKeepsLegal : Prop :=
  ∀ s t : State, legal s = true → step s = .next t → legal t = true

/-- No legal state is stuck or refused: "every step rule is total over its state" (70_reset_and_hazards.md R196), and no
rule peeks at bits it has not ensured (R194). -/
def Obligations.LegalStepAnswersNext : Prop :=
  ∀ s : State, legal s = true → ∃ t, step s = .next t

/-- Every window cell within the last `written` bytes holds a byte, in the live and in the committed session, and every
step keeps it so: no rule ever reads an unwritten cell (10_state.md R45). -/
def Obligations.HistoryKept : Prop :=
  ∀ s t : State, legal s = true → historyOk s → step s = .next t → historyOk t

/-- Every session ends: from any legal state the engine, left alone, reaches one with BUSY = 0, and if BUSY was 1 the
session has ended DONE or FAILED (70_reset_and_hazards.md R197, without its count of steps). -/
def Obligations.SessionEnds : Prop :=
  ∀ s : State, legal s = true → s.sched = [] →
    ∃ k t, runSteps k s = .next t ∧ t.busy = false ∧ (s.busy = true → t.done = true ∨ t.failed = true)

/-! ## Reset -/

/-- What a hardware reset leaves (70_reset_and_hazards.md R187, 10_state.md R47): every register reads 0 but R0..R2, which
read 1, and the constants; the interrupt line is low; every `IN` byte is unwritten; a read of `OUT` gives 0. A pulse of
`rst` leaves that state. The model's choices in it: the schedule, the last response, the sticky mark and the count of
draws stay (log entry 10), the session variables that R47 leaves unspecified are 0, empty or unwritten (log entry 7), and
`OUT` has no written byte (log entry 8). -/
def Obligations.ResetState : Prop :=
  (∀ (p : Params) (o : Nat), o ∉ [0x000, 0x02C, 0x030, 0x034, 0x03C, 0x040, 0x044, 0x050] →
      csrValue (State.resetOf p) o = 0)
    ∧ (∀ p : Params, csrValue (State.resetOf p) 0x000 = 0x4C5A5801
      ∧ csrValue (State.resetOf p) 0x02C = 1 ∧ csrValue (State.resetOf p) 0x030 = 1
      ∧ csrValue (State.resetOf p) 0x034 = 1
      ∧ irq (State.resetOf p) = false
      ∧ (∀ a, (State.resetOf p).inp.get? a = none)
      ∧ ∀ a, (readOutByte a (State.resetOf p)).1 = 0)
    ∧ ∀ (s : State) (rest : List Turn), s.cfg.valid = true → s.pend = none → s.sched = .rst :: rest →
      step s = .next { State.resetOf s.cfg with
        sched := rest, resp := s.resp, busErr := s.busErr, draws := s.draws }

/-! ## Host accesses -/

/-- CSR_READ (46_host_interface.md R152): an aligned read answers the register's value and changes nothing; a misaligned one
is a bus error. -/
def Obligations.CsrReadResult : Prop :=
  ∀ (o : BitVec 12) (s : State),
    (o.toNat % 4 = 0 → exec (.csrRead o) s = .next { s with resp := .data (csrValue s o.toNat) })
      ∧ (o.toNat % 4 ≠ 0 → exec (.csrRead o) s = .next { s with resp := .error, busErr := true })

/-- The layout of the registers (10_state.md R21 to R36): each field at its bits, every other bit 0; the live mirrors show
the session as last committed (R40), DSTATE by the codes of R39. -/
def Obligations.CsrLayout : Prop :=
  [DState.idle, .container, .rawCopy, .frameHdr, .streamHdr, .blockHdr, .decVerbatim, .decAligned, .decUncomp, .done,
      .failed].map DState.code = [0, 1, 2, 3, 4, 5, 6, 7, 8, 9, 10]
    ∧ ∀ s : State,
      csrValue s 0x000 = 0x4C5A5801
        ∧ (csrValue s 0x004).toNat = 4 * s.irqEn.toNat
        ∧ (csrValue s 0x008).toNat = s.busy.toNat + 2 * s.done.toNat + 4 * s.failed.toNat + 8 * s.e8Present.toNat
            + 16 * s.compressed.toNat + 32 * s.cmdIgnored.toNat + 256 * s.seen.ds.code
        ∧ (csrValue s 0x00C).toNat = s.errCause.toNat + 256 * s.errDetail.toNat
        ∧ (csrValue s 0x010).toNat = s.errPos % 2 ^ 32
        ∧ (csrValue s 0x014).toNat = s.inLen % 2 ^ 32
        ∧ (csrValue s 0x018).toNat = (if s.busy then s.seen.produced else s.outLen) % 2 ^ 32
        ∧ (csrValue s 0x01C).toNat = s.hdrPlatform.toNat + 256 * s.hdrVersion.toNat + 65536 * s.hdrFlags.toNat
        ∧ csrValue s 0x020 = s.hdrFileSize ∧ csrValue s 0x024 = s.hdrDecSize ∧ csrValue s 0x028 = s.e8FileSize
        ∧ csrValue s 0x02C = s.seen.r0 ∧ csrValue s 0x030 = s.seen.r1 ∧ csrValue s 0x034 = s.seen.r2
        ∧ (csrValue s 0x038).toNat = s.seen.frameCount % 2 ^ 32
        ∧ (csrValue s 0x03C).toNat = s.cfg.windowBits % 2 ^ 5
            + 256 * (decide (s.cfg.slot2Mode = .rotate)).toNat + 512 * s.cfg.oddPad.toNat
        ∧ (csrValue s 0x040).toNat = s.cfg.inCap % 2 ^ 32
        ∧ (csrValue s 0x044).toNat = s.cfg.outCap % 2 ^ 32
        ∧ (csrValue s 0x048).toNat = s.seen.blockRem % 2 ^ 24 + 2 ^ 24 * s.seen.blockType.toNat
            + 2 ^ 27 * s.seen.headerRead.toNat
        ∧ (csrValue s 0x04C).toNat = s.seen.frameRem % 2 ^ 17
        ∧ (csrValue s 0x050).toNat = s.cfg.magic0.toNat + 256 * s.cfg.magic1.toNat + 65536 * s.cfg.magic2.toNat

/-- The offsets of the registers of 10_state.md R20 (all multiples of 4 up to 0x050), the read-only ones among them, and the
reserved offsets and fields (R37): reserved ones read 0; writes to reserved and read-only ones are ignored, with no bus
error; the reserved bits of a write to CTRL or STATUS make no difference. -/
def Obligations.ReservedCsrs : Prop :=
  (∀ (o : BitVec 12) (s : State), o.toNat % 4 = 0 → 0x050 < o.toNat →
      exec (.csrRead o) s = .next { s with resp := .data 0 })
    ∧ (∀ (o : BitVec 12) (v : Word) (s : State), o.toNat % 4 = 0 → o.toNat ≠ 0x004 → o.toNat ≠ 0x008 →
        o.toNat ≠ 0x014 → exec (.csrWrite o v) s = .next { s with resp := .ok })
    ∧ (∀ (s : State) (k : Nat),
        (k ≠ 2 → (csrValue s 0x004).getLsbD k = false)
          ∧ (k = 6 ∨ k = 7 ∨ 12 ≤ k → (csrValue s 0x008).getLsbD k = false)
          ∧ (4 ≤ k ∧ k < 8 ∨ 16 ≤ k → (csrValue s 0x00C).getLsbD k = false)
          ∧ (24 ≤ k → (csrValue s 0x01C).getLsbD k = false)
          ∧ (5 ≤ k ∧ k < 8 ∨ 10 ≤ k → (csrValue s 0x03C).getLsbD k = false)
          ∧ (28 ≤ k → (csrValue s 0x048).getLsbD k = false)
          ∧ (17 ≤ k → (csrValue s 0x04C).getLsbD k = false)
          ∧ (24 ≤ k → (csrValue s 0x050).getLsbD k = false))
    ∧ (∀ (s : State) (v w : Word), v.extractLsb' 0 3 = w.extractLsb' 0 3 →
        exec (decodeCtrl v) s = exec (decodeCtrl w) s)
    ∧ ∀ (s : State) (v w : Word), v.getLsbD 1 = w.getLsbD 1 → v.getLsbD 2 = w.getLsbD 2 →
        v.getLsbD 5 = w.getLsbD 5 → exec (.w1c v) s = exec (.w1c w) s

/-- START (46_host_interface.md R154, R155): with BUSY = 0 it sets every session variable and CSR of
70_reset_and_hazards.md R188 to the value there and leaves the rest; with BUSY = 1 it is refused and recorded (R160).
IRQ_EN is updated first. -/
def Obligations.StartResult : Prop :=
  ∀ (v : Word) (s : State), v.getLsbD 0 = true → v.getLsbD 1 = false →
    (s.busy = false → exec (.start v) s = .next { s with
      sess := {
        ds := .container, compressed := false, decSize := 0, produced := 0, inPos := 0, fhdrPos := 0
        frameBase := 0, frameLen := 0, frameSize := 0, frameRem := 0, frameCount := 0, rdC := 0, rdQ := []
        headerRead := false, e8Present := false, e8Size := 0, blockType := 0, blockLen := 0, blockRem := 0
        r0 := 1, r1 := 1, r2 := 1
        mainLen := List.replicate s.cfg.mainElements 0, lenLen := List.replicate 250 0
        alLen := List.replicate 8 0, preLen := List.replicate 20 0
        win := [], wpos := 0, written := 0 }
      pend := none
      irqEn := v.getLsbD 2
      busy := true, done := false, failed := false, e8Present := false, compressed := false
      errCause := 0, errDetail := 0, errPos := 0, outLen := 0
      hdrPlatform := 0, hdrVersion := 0, hdrFlags := 0, hdrFileSize := 0, hdrDecSize := 0, e8FileSize := 0
      resp := .ok })
      ∧ (s.busy = true →
        exec (.start v) s = .next { s with irqEn := v.getLsbD 2, cmdIgnored := true, resp := .ok })

/-- SOFT_RESET (46_host_interface.md R156), BUSY or not: the reset state, with the contents of `IN` and `OUT` kept, and
nothing of the session left to the engine. Bits 0 and 2 of the write are ignored (R154). That the schedule, the sticky mark
and the count of draws stay, and the values of unspecified session variables, are the model's choice (log entries 10
and 7). -/
def Obligations.SoftResetResult : Prop :=
  ∀ (v : Word) (s : State), v.getLsbD 1 = true →
    exec (.softReset v) s = .next { State.resetOf s.cfg with
      inp := s.inp, out := s.out, sched := s.sched, resp := .ok, busErr := s.busErr, draws := s.draws }

/-- IRQ_EN (46_host_interface.md R157): every CTRL write without SOFT_RESET sets it from bit 2; a write without START changes
nothing else, and the line follows at once (60_exceptions.md R178). -/
def Obligations.IrqEnResult : Prop :=
  ∀ (v : Word) (s : State), v.getLsbD 1 = false →
    (v.getLsbD 0 = false → exec (.irqEn v) s = .next { s with irqEn := v.getLsbD 2, resp := .ok }
        ∧ irq { s with irqEn := v.getLsbD 2, resp := .ok } = (v.getLsbD 2 && (s.done || s.failed)))
      ∧ (v.getLsbD 0 = true → ∃ t, exec (.start v) s = .next t ∧ t.irqEn = v.getLsbD 2
        ∧ irq t = (t.irqEn && (t.done || t.failed)))

/-- W1C (46_host_interface.md R158): writing 1 clears the sticky bit; every other bit and register stays; clearing both drops
the interrupt line. -/
def Obligations.W1cResult : Prop :=
  ∀ (v : Word) (s : State), ∃ t, exec (.w1c v) s = .next t
    ∧ t = { s with
        done := if v.getLsbD 1 then false else s.done
        failed := if v.getLsbD 2 then false else s.failed
        cmdIgnored := if v.getLsbD 5 then false else s.cmdIgnored
        resp := .ok }
    ∧ (v.getLsbD 1 = true → v.getLsbD 2 = true → irq t = false)

/-- IN_LEN (46_host_interface.md R159): with BUSY = 0 the value is stored, at most `IN_CAP`; with BUSY = 1 the write is
refused and recorded. -/
def Obligations.InLenResult : Prop :=
  ∀ (v : Word) (s : State),
    (s.busy = false → exec (.inLen v) s = .next { s with inLen := min v.toNat s.cfg.inCap, resp := .ok })
      ∧ (s.busy = true → exec (.inLen v) s = .next { s with cmdIgnored := true, resp := .ok })

/-- IN_WRITE (46_host_interface.md R161): an admitted write stores the datum little-endian, and no other byte of `IN` and no
other field changes; a write that is not admitted is a bus error. That an 8-bit write takes its datum from bits 7:0 is the model's choice
(log entry 11). -/
def Obligations.InWriteResult : Prop :=
  ∀ (a : BitVec 20) (size : Size) (v : Word) (s : State),
    (inAdmitted s a.toNat size → ∃ t, exec (.inWrite a size v) s = .next t
        ∧ t = { s with inp := t.inp, resp := .ok }
        ∧ (∀ x, t.inp.get? x =
            if a.toNat ≤ x ∧ x < a.toNat + size.bytes then some (v.extractLsb' (8 * (x - a.toNat)) 8)
            else s.inp.get? x)
        ∧ (s.inp.wf = true → t.inp.wf = true))
      ∧ (¬ inAdmitted s a.toNat size →
          exec (.inWrite a size v) s = .next { s with resp := .error, busErr := true })

/-- IN_READ (46_host_interface.md R162): an admitted read answers the bytes little-endian, a fresh draw for each unwritten one
(20_memory.md R49), and changes nothing but the response and the count of draws; a read that is not admitted is a bus
error. The model's choices: the draws are taken in rising offset order (log entry 6), and an 8-bit read answers in bits
7:0 with the rest 0 (log entry 11). -/
def Obligations.InReadResult : Prop :=
  ∀ (a : BitVec 20) (size : Size) (s : State),
    (inAdmitted s a.toNat size → ∃ v : Word,
        exec (.inRead a size) s =
          .next { s with resp := .data v, draws := s.draws + unwritten s.inp a.toNat size.bytes }
        ∧ v.toNat < 256 ^ size.bytes
        ∧ ∀ k, k < size.bytes → v.extractLsb' (8 * k) 8 =
            (s.inp.get? (a.toNat + k)).getD (Config.draw (s.draws + unwritten s.inp a.toNat k)))
      ∧ (¬ inAdmitted s a.toNat size →
          exec (.inRead a size) s = .next { s with resp := .error, busErr := true })

/-- OUT_READ (46_host_interface.md R163, 20_memory.md R51): an admitted read answers the bytes below OUT_LEN and 0 at and
beyond it, and changes nothing but the response and, for a byte of `OUT` never written, the count of draws; a read that
is not admitted is a bus error. That an 8-bit read answers in bits 7:0 with the rest 0 is the model's choice (log
entry 11). -/
def Obligations.OutReadResult : Prop :=
  ∀ (a : BitVec 20) (size : Size) (s : State),
    (outAdmitted s a.toNat size → ∃ (v : Word) (t : State), exec (.outRead a size) s = .next t
        ∧ t = { s with resp := .data v, draws := t.draws }
        ∧ v.toNat < 256 ^ size.bytes
        ∧ (∀ k, k < size.bytes → s.outLen ≤ a.toNat + k → v.extractLsb' (8 * k) 8 = 0)
        ∧ (∀ k b, k < size.bytes → a.toNat + k < s.outLen → s.out.get? (a.toNat + k) = some b →
            v.extractLsb' (8 * k) 8 = b)
        ∧ ((∀ k, k < size.bytes → a.toNat + k < s.outLen → (s.out.get? (a.toNat + k)).isSome = true) →
            t.draws = s.draws))
      ∧ (¬ outAdmitted s a.toNat size →
          exec (.outRead a size) s = .next { s with resp := .error, busErr := true })

/-- The apertures are closed while BUSY (46_host_interface.md R165). -/
def Obligations.AperturesClosed : Prop :=
  ∀ (a : BitVec 20) (size : Size) (v : Word) (s : State), s.busy = true →
    exec (.inWrite a size v) s = .next { s with resp := .error, busErr := true }
      ∧ exec (.inRead a size) s = .next { s with resp := .error, busErr := true }
      ∧ exec (.outRead a size) s = .next { s with resp := .error, busErr := true }
      ∧ exec (.outWrite a size v) s = .next { s with resp := .error, busErr := true }

/-- OUT_WRITE (46_host_interface.md R164): always a bus error with no effect, and no host access writes `OUT`. -/
def Obligations.OutWriteRefused : Prop :=
  (∀ (a : BitVec 20) (size : Size) (v : Word) (s : State),
      exec (.outWrite a size v) s = .next { s with resp := .error, busErr := true })
    ∧ ∀ (i : Instr) (s t : State), isHost i = true → exec i s = .next t → ∀ a, t.out.get? a = s.out.get? a

/-- BUS_ERROR (46_host_interface.md R166, 60_exceptions.md R179): an access that the address map and the width rules do not
admit is that row, gets an error response, and changes nothing else but the sticky host-side mark; no step clears the
mark (over a reset that is the model's choice, log entry 10). -/
def Obligations.BusErrorResult : Prop :=
  (∀ (p : Params) (acc : Access), acc.placed = false → decode p (.host acc) = .ok (.busError acc))
    ∧ (∀ (acc : Access) (s : State), exec (.busError acc) s = .next { s with resp := .error, busErr := true })
    ∧ ∀ s t : State, s.busErr = true → step s = .next t → t.busErr = true

/-- No host access but START and SOFT_RESET touches the session, the results or `OUT` (46_host_interface.md R160, R167). -/
def Obligations.HostKeepsSession : Prop :=
  ∀ (i : Instr) (s t : State), isHost i = true → i.wellFormed s.cfg = true → (∀ v, i ≠ .start v) →
    (∀ v, i ≠ .softReset v) → exec i s = .next t → engineSideKept s t

/-! ## The two agents -/

/-- No element of the engine touches what is the host's: `IN`, IN_LEN, the controls, the bus side, the parameters
(20_memory.md R49, 10_state.md R26). -/
def Obligations.EngineKeepsHostSide : Prop :=
  ∀ (i : Instr) (s t : State), isHost i = false → exec i s = .next t → hostSideKept s t

/-- The host sees state between engine steps only (10_state.md R40): an element that leaves its step in progress changes no
register the host can read and leaves the interrupt line. -/
def Obligations.StepSeenWhole : Prop :=
  ∀ (i : Instr) (s t : State), isHost i = false → exec i s = .next t → t.pend ≠ none →
    (∀ o, csrValue t o = csrValue s o) ∧ irq t = irq s ∧ t.seen = s.seen

/-- No access comes between the parts of an engine step, and between steps a host turn runs the access that the schedule
gives (10_state.md R40, 20_memory.md R61). -/
def Obligations.HostTurns : Prop :=
  (∀ s t : State, s.pend ≠ none → step s = .next t → hostSideKept s t)
    ∧ ∀ (s : State) (a : Access) (rest : List Turn), s.cfg.valid = true → s.pend = none → s.sched = .host a :: rest →
      step s = exec (decodeHost a) { s with sched := rest }

/-- The engine's turn where no element runs: with BUSY = 0 nothing happens (60_exceptions.md R186); in FRAME_HDR with the
declared size produced the session ends DONE and nothing is read (45_frame_demux.md R145). -/
def Obligations.TurnsWithoutElement : Prop :=
  (∀ s : State, s.cfg.valid = true → s.pend = none → s.busy = false → s.sched = [] → step s = .next s)
    ∧ (∀ (s : State) (rest : List Turn), s.cfg.valid = true → s.pend = none → s.busy = false →
        s.sched = .engine :: rest → step s = .next { s with sched := rest })
    ∧ ∀ s : State, s.cfg.valid = true → s.pend = none → s.busy = true → s.sched = [] → s.sess.ds = .frameHdr →
        s.sess.produced = s.sess.decSize →
        step s = .next { s with
          sess := { s.sess with ds := .done }, outLen := s.sess.produced, busy := false, done := true }

/-- A run depends on its launch alone (60_exceptions.md R177, 70_reset_and_hazards.md R188, R198): two instances with the same
parameters, the same IN_LEN and the same written bytes below it, whatever else differs, run in step from START. -/
def Obligations.SameLaunchSameRun : Prop :=
  ∀ (k : Nat) (s t s0 t0 s' : State), s.busy = false → t.busy = false → s.sched = [] → t.sched = [] →
    t.cfg = s.cfg → t.inLen = s.inLen →
    (∀ a, a < s.inLen → (s.inp.get? a).isSome = true ∧ t.inp.get? a = s.inp.get? a) →
    exec (.start 1) s = .next s0 → exec (.start 1) t = .next t0 → runSteps k s0 = .next s' →
    ∃ t', runSteps k t0 = .next t' ∧ sameRun s' t'

/-! ## Faults -/

/-- Entry to FAILED is precise (60_exceptions.md R174, R175): whenever a step raises FAILED, everything but the record of the
fault is as the last engine step committed it. A step in progress keeps the schedule; any other takes its own turn, the
first of the schedule if there is one, and leaves the rest. -/
def Obligations.FaultEntry : Prop :=
  ∀ s t : State, step s = .next t → s.failed = false → t.failed = true →
    ∃ e, faulted e { s with sched := if s.pend = none then s.sched.tail else s.sched } t

/-- Every fault is a row of 60_exceptions.md R171, raised in a state that row names. -/
def Obligations.FaultsByState : Prop :=
  ∀ s t : State, legal s = true → step s = .next t → s.failed = false → t.failed = true →
    ∃ row ∈ faultRows, t.errCause.toNat = row.1 ∧ t.errDetail.toNat = row.2.1 ∧ s.seen.ds ∈ row.2.2

/-- The container step makes its checks in the order of 40_container.md R85. -/
def Obligations.ContainerStep : Prop :=
  ∀ s : State, s.cfg.valid = true → s.busy = true → s.pend = none → s.sched = [] → s.sess.ds = .container →
    let b0 := s.readIn 0
    let b1 := b0.2.readIn 1
    let b2 := b1.2.readIn 2
    let b3 := b2.2.readIn 3
    let b4 := b3.2.readIn 4
    let b5 := b4.2.readIn 5
    let magic : BitVec 24 := b0.1 ++ b1.1 ++ b2.1
    (s.inLen < 3 → ∃ t, step s = .next t ∧ faulted .headerShort s t)
      ∧ (3 ≤ s.inLen → magic ≠ s.cfg.magicWord → ∃ t, step s = .next t ∧ faulted .badMagic s t)
      ∧ (3 ≤ s.inLen → magic = s.cfg.magicWord → s.inLen < 10 → ∃ t, step s = .next t ∧ faulted .headerShort s t)
      ∧ (magic = s.cfg.magicWord → 10 ≤ s.inLen → b5.1.getLsbD 7 = false →
          step s = exec (.contRaw b3.1 b4.1 b5.1) (begin b5.2))
      ∧ (magic = s.cfg.magicWord → 10 ≤ s.inLen → b5.1.getLsbD 7 = true →
          step s = exec (.contCompressed b3.1 b4.1 b5.1) (begin b5.2))

/-! ## The bit reader and the trees -/

/-- A field read at a word boundary is the top bits of the little-endian word there, most significant first; the rest of the
word stays buffered, real (20_memory.md R53, 41_bit_reader.md R93, R97). A last odd byte of the frame's data is the low
byte of a real word whose high byte is 0 (R93). At or beyond the data's end a field that the buffered bits do not hold
faults, whatever they are (R93, R96); a field they hold is theirs if all its bits are real, and else faults. -/
def Obligations.ReadWordBits : Prop :=
  (∀ (s : State) (n : Nat) (lo hi : Byte), s.sess.rdQ = [] → 1 ≤ n → n ≤ 16 →
      (s.sess.rdC + 1 < s.sess.frameLen ∧ s.inp.get? (s.sess.frameBase + s.sess.rdC + 1) = some hi
        ∨ s.sess.rdC + 1 = s.sess.frameLen ∧ hi = 0) →
      s.inp.get? (s.sess.frameBase + s.sess.rdC) = some lo →
      ∃ t, readBits n s = .ok ((hi.toNat * 256 + lo.toNat) / 2 ^ (16 - n)) t
        ∧ t = { s with sess := { s.sess with rdC := s.sess.rdC + 2, rdQ := t.sess.rdQ } }
        ∧ t.sess.rdQ.length = 16 - n
        ∧ bitsVal t.sess.rdQ = (hi.toNat * 256 + lo.toNat) % 2 ^ (16 - n)
        ∧ ∀ b ∈ t.sess.rdQ, b.real = true)
    ∧ (∀ (s : State) (n : Nat), s.sess.rdQ.length < n → n ≤ 16 → s.sess.frameLen ≤ s.sess.rdC →
      readBits n s = .raise .bitsExhausted s.draws)
    ∧ ∀ (s : State) (n : Nat), n ≤ s.sess.rdQ.length →
      ((∀ b ∈ s.sess.rdQ.take n, b.real = true) →
          readBits n s = .ok (bitsVal (s.sess.rdQ.take n)) (s.setReader s.sess.rdC (s.sess.rdQ.drop n)))
        ∧ ((∃ b ∈ s.sess.rdQ.take n, b.real = false) → readBits n s = .raise .bitsExhausted s.draws)

/-- Two consecutive fields are one field of both widths, across word boundaries too (20_memory.md R53, 41_bit_reader.md
R103). -/
def Obligations.ReadBitsSplit : Prop :=
  ∀ (m n : Nat) (s s1 s2 : State) (v w : Nat), m + n ≤ 16 → readBits m s = .ok v s1 → readBits n s1 = .ok w s2 →
    readBits (m + n) s = .ok (v * 2 ^ n + w) s2

/-- The progress measure (41_bit_reader.md R102): `fetch` leaves it, a field of `n` bits raises it by `n`, a raw byte by 8,
the realignment by 1 to 16, and `reinit` does not lower it. The realignment ends at a 16-bit word boundary of the
reader (R98): the cursor keeps its parity. -/
def Obligations.ReaderProgress : Prop :=
  (∀ s : State, readerProgress (fetchWord s).sess = readerProgress s.sess)
    ∧ (∀ (n : Nat) (s t : State) (v : Nat), readBits n s = .ok v t →
        readerOnly s t ∧ readerProgress t.sess = readerProgress s.sess + n)
    ∧ (∀ (s t : State) (b : Byte), readByte s = .ok b t →
        readerOnly s t ∧ readerProgress t.sess = readerProgress s.sess + 8)
    ∧ (∀ s : State, s.sess.rdQ.length ≤ 31 → s.sess.rdQ.length ≤ 8 * s.sess.rdC →
        readerOnly s (align16 s) ∧ (align16 s).sess.rdQ = []
          ∧ (align16 s).sess.rdC = alignedCursor s.sess ∧ alignedCursor s.sess % 2 = s.sess.rdC % 2
          ∧ readerProgress s.sess + 1 ≤ readerProgress (align16 s).sess
          ∧ readerProgress (align16 s).sess ≤ readerProgress s.sess + 16)
    ∧ ∀ s : State, readerProgress s.sess ≤ readerProgress (reinit s).sess

/-- The canonical code (42_huffman.md R107, R108): in a complete tree every 16-bit prefix lies in the interval of exactly one
coded symbol, and the symbol found is that one, with its length. -/
def Obligations.CanonicalCode : Prop :=
  ∀ (lens : List Nat) (v : Nat), (∀ l ∈ lens, l ≤ 16) → kraft lens = 65536 → v < 65536 →
    ∃ i, i < lens.length ∧ inInterval lens i v ∧ findSymbol lens v = some (i, lens.getD i 0)
      ∧ ∀ j, inInterval lens j v → j = i

/-- The symbol decode (42_huffman.md R108, R109): 16 bits are ensured and looked at, the symbol whose interval holds them is
the answer, and its code's bits alone are consumed; a code with a bit beyond the frame's data is a fault, and so is a
decode from an empty tree. -/
def Obligations.DecodeSymbolResult : Prop :=
  ∀ (tr : Tree) (s : State), (∀ l ∈ tr.lens s, l ≤ 16) →
    (kraft (tr.lens s) = 0 → decodeSymbol tr s = .raise tr.empty s.draws)
      ∧ (kraft (tr.lens s) = 65536 → ∀ i,
        inInterval (tr.lens s) i (bitsVal ((ensure 16 s).sess.rdQ.take 16)) →
        (((ensure 16 s).sess.rdQ.take ((tr.lens s).getD i 0)).all (·.real) = true →
          decodeSymbol tr s = .ok i ((ensure 16 s).setReader (ensure 16 s).sess.rdC
            ((ensure 16 s).sess.rdQ.drop ((tr.lens s).getD i 0))))
        ∧ (((ensure 16 s).sess.rdQ.take ((tr.lens s).getD i 0)).all (·.real) = false →
          decodeSymbol tr s = .raise .bitsExhausted (ensure 16 s).draws))

/-- The Kraft sum (42_huffman.md R105), and what `build` does with it (R106): complete and empty trees pass and nothing
changes, every other is the tree's own fault. -/
def Obligations.KraftSum : Prop :=
  (∀ lens : List Nat, kraft lens = ((lens.filter fun l => decide (0 < l)).map fun l => 2 ^ (16 - l)).sum)
    ∧ ∀ (tr : Tree) (s : State),
      (kraft (tr.lens s) = 65536 ∨ kraft (tr.lens s) = 0 → build tr s = .ok () s)
        ∧ (kraft (tr.lens s) ≠ 65536 → kraft (tr.lens s) ≠ 0 → build tr s = .raise tr.invalid s.draws)

/-! ## Container -/

/-- CONT_RAW, CONT_COMPRESSED and CONT_BADMAGIC (40_container.md R86 to R89): the header fields are recorded, the little-endian
sizes read, the capacity checked, and the next engine state chosen; a bad signature is a fault. -/
def Obligations.ContainerResults : Prop :=
  (∀ (platform version flags : Byte) (s : State),
      (s.cfg.outCap < s.inLen - 10 → ∃ t, exec (.contRaw platform version flags) s = .next t
        ∧ faulted .outCapacity s t)
      ∧ (s.inLen - 10 ≤ s.cfg.outCap → ∃ t, exec (.contRaw platform version flags) s = .next t
        ∧ t = { s with
            pend := none
            hdrPlatform := platform, hdrVersion := version, hdrFlags := flags
            hdrFileSize := t.hdrFileSize, hdrDecSize := 0, compressed := flags.getLsbD 7
            draws := t.draws
            sess := { s.sess with compressed := flags.getLsbD 7, decSize := s.inLen - 10, ds := .rawCopy } }
        ∧ ∀ k b, k < 4 → s.inp.get? (6 + k) = some b → t.hdrFileSize.extractLsb' (8 * k) 8 = b))
    ∧ (∀ (platform version flags : Byte) (s : State),
      (s.inLen < 14 → ∃ t, exec (.contCompressed platform version flags) s = .next t ∧ faulted .headerShort s t)
      ∧ (14 ≤ s.inLen → ∃ (d : Word) (t : State), exec (.contCompressed platform version flags) s = .next t
        ∧ (∀ k b, k < 4 → s.inp.get? (10 + k) = some b → d.extractLsb' (8 * k) 8 = b)
        ∧ (s.cfg.outCap < d.toNat → faulted .outCapacity s t)
        ∧ (d.toNat ≤ s.cfg.outCap →
          t = { s with
            pend := none
            hdrPlatform := platform, hdrVersion := version, hdrFlags := flags
            hdrFileSize := t.hdrFileSize, hdrDecSize := d, compressed := flags.getLsbD 7
            draws := t.draws
            sess := { s.sess with
              compressed := flags.getLsbD 7, decSize := d.toNat, inPos := 14, produced := 0, ds := .frameHdr } }
          ∧ ∀ k b, k < 4 → s.inp.get? (6 + k) = some b → t.hdrFileSize.extractLsb' (8 * k) 8 = b)))
    ∧ ∀ (magic : BitVec 24) (s : State), ∃ t, exec (.contBadmagic magic) s = .next t ∧ faulted .badMagic s t

/-- RAW_COPY (40_container.md R90): the payload reaches `OUT` byte for byte, a draw for an unwritten byte, no other byte of
`OUT` changes, and the session ends DONE with the payload's length. -/
def Obligations.RawCopyResult : Prop :=
  ∀ s : State, ∃ t, exec .rawCopy s = .next t
    ∧ t = { s with
        pend := none
        out := t.out
        outLen := s.sess.decSize
        busy := false
        done := true
        draws := t.draws
        sess := { s.sess with produced := s.sess.decSize, ds := .done } }
    ∧ (∀ a, a < s.sess.decSize → (t.out.get? a).isSome = true)
    ∧ (∀ a b, a < s.sess.decSize → s.inp.get? (10 + a) = some b → t.out.get? a = some b)
    ∧ ∀ a, s.sess.decSize ≤ a → t.out.get? a = s.out.get? a

/-! ## Frames -/

/-- FRAME_STD and FRAME_EXT (45_frame_demux.md R146 to R148, R150): a header that passes the checks starts its frame. -/
def Obligations.FrameStarts : Prop :=
  (∀ (h0 : Byte) (s : State), s.sess.inPos + 2 ≤ s.inLen →
      s.sess.headerRead = false ∨ s.sess.blockRem = 0 ∨ s.sess.blockType = 1 ∨ s.sess.blockType = 2
        ∨ s.sess.blockType = 3 →
      let bs := h0.toNat * 256 + (s.readIn (s.sess.inPos + 1)).1.toNat
      bs ≠ 0 → 32768 ≤ s.sess.decSize - s.sess.produced → s.sess.inPos + 2 + bs ≤ s.inLen →
      ∃ t, exec (.frameStd h0) s = .next t ∧ frameStarted s.sess.inPos 2 bs 32768 s t)
    ∧ ∀ s : State, s.sess.inPos + 5 ≤ s.inLen →
      s.sess.headerRead = false ∨ s.sess.blockRem = 0 ∨ s.sess.blockType = 1 ∨ s.sess.blockType = 2
        ∨ s.sess.blockType = 3 →
      let f1 := s.readIn (s.sess.inPos + 1)
      let f2 := f1.2.readIn (s.sess.inPos + 2)
      let b1 := f2.2.readIn (s.sess.inPos + 3)
      let b2 := b1.2.readIn (s.sess.inPos + 4)
      let fs := f1.1.toNat * 256 + f2.1.toNat
      let bs := b1.1.toNat * 256 + b2.1.toNat
      bs ≠ 0 → fs ≠ 0 → fs ≤ s.sess.decSize - s.sess.produced → s.sess.inPos + 5 + bs ≤ s.inLen →
      ∃ t, exec .frameExt s = .next t ∧ frameStarted s.sess.inPos 5 bs fs s t

/-- The frame header's checks, in their order (45_frame_demux.md R146 to R148): header bytes, zero sizes, over the total, data
beyond IN_LEN. -/
def Obligations.FrameFaults : Prop :=
  (∀ (h0 : Byte) (s : State),
      (s.inLen < s.sess.inPos + 2 → ∃ t, exec (.frameStd h0) s = .next t ∧ faulted .frameHeaderShort s t)
      ∧ (s.sess.inPos + 2 ≤ s.inLen →
        let bs := h0.toNat * 256 + (s.readIn (s.sess.inPos + 1)).1.toNat
        (bs = 0 → ∃ t, exec (.frameStd h0) s = .next t ∧ faulted .frameZeroSize s t)
        ∧ (bs ≠ 0 → s.sess.decSize - s.sess.produced < 32768 →
            ∃ t, exec (.frameStd h0) s = .next t ∧ faulted .frameOverTotal s t)
        ∧ (bs ≠ 0 → 32768 ≤ s.sess.decSize - s.sess.produced → s.inLen < s.sess.inPos + 2 + bs →
            ∃ t, exec (.frameStd h0) s = .next t ∧ faulted .frameDataShort s t)))
    ∧ ∀ s : State,
      (s.inLen < s.sess.inPos + 5 → ∃ t, exec .frameExt s = .next t ∧ faulted .frameHeaderShort s t)
      ∧ (s.sess.inPos + 5 ≤ s.inLen →
        let f1 := s.readIn (s.sess.inPos + 1)
        let f2 := f1.2.readIn (s.sess.inPos + 2)
        let b1 := f2.2.readIn (s.sess.inPos + 3)
        let b2 := b1.2.readIn (s.sess.inPos + 4)
        let fs := f1.1.toNat * 256 + f2.1.toNat
        let bs := b1.1.toNat * 256 + b2.1.toNat
        (bs = 0 ∨ fs = 0 → ∃ t, exec .frameExt s = .next t ∧ faulted .frameZeroSize s t)
        ∧ (bs ≠ 0 → fs ≠ 0 → s.sess.decSize - s.sess.produced < fs →
            ∃ t, exec .frameExt s = .next t ∧ faulted .frameOverTotal s t)
        ∧ (bs ≠ 0 → fs ≠ 0 → fs ≤ s.sess.decSize - s.sess.produced → s.inLen < s.sess.inPos + 5 + bs →
            ∃ t, exec .frameExt s = .next t ∧ faulted .frameDataShort s t))

/-! ## Stream header and block headers -/

/-- E8_OFF and E8_ON (43_lzx_blocks.md R113, R114): the marker is recorded, the high half first, and a block header
follows. -/
def Obligations.StreamHeader : Prop :=
  (∀ s : State, exec .e8Off s = .next { s with
      pend := none
      e8Present := false
      sess := { s.sess with e8Present := false, e8Size := 0, headerRead := true, ds := .blockHdr } })
    ∧ (∀ (s s1 s2 : State) (hi lo : Nat), readBits 16 (begin s) = .ok hi s1 → readBits 16 s1 = .ok lo s2 →
      ∃ size : Word, size.toNat = hi * 65536 + lo ∧ exec .e8On s = .next { s with
        pend := none
        e8FileSize := size
        e8Present := true
        draws := s2.draws
        sess := { s.sess with
          rdC := s2.sess.rdC, rdQ := s2.sess.rdQ
          e8Present := true, e8Size := size, headerRead := true, ds := .blockHdr } })
    ∧ ∀ (s s1 : State) (hi : Nat),
      (∀ e d, readBits 16 (begin s) = .raise e d → ∃ t, exec .e8On s = .next t ∧ faulted .bitsExhausted s t)
      ∧ (readBits 16 (begin s) = .ok hi s1 → ∀ e d, readBits 16 s1 = .raise e d →
        ∃ t, exec .e8On s = .next t ∧ faulted .bitsExhausted s t)

/-- BLK_VERBATIM, BLK_ALIGNED, BLK_UNCOMP and BLK_INVALID (43_lzx_blocks.md R115 to R119): the 24-bit length is read, high part
first; then the body's first element is awaited, in the same step, or an invalid type faults; a header cut off by the
frame's end faults whatever its type. -/
def Obligations.BlockHeaders : Prop :=
  (∀ (s s1 s2 : State) (hi lo : Nat), readBits 16 (begin s) = .ok hi s1 → readBits 8 s1 = .ok lo s2 →
      exec .blkVerbatim s = .next { s with
          pend := some ⟨s.seen, .pretree ⟨1, hi * 256 + lo⟩ .mainLow⟩
          draws := s2.draws
          sess := { s.sess with rdC := s2.sess.rdC, rdQ := s2.sess.rdQ } }
      ∧ exec .blkAligned s = .next { s with
          pend := some ⟨s.seen, .alignedLens ⟨2, hi * 256 + lo⟩⟩
          draws := s2.draws
          sess := { s.sess with rdC := s2.sess.rdC, rdQ := s2.sess.rdQ } }
      ∧ exec .blkUncomp s = .next { s with
          pend := some ⟨s.seen, .uncompAlignR ⟨3, hi * 256 + lo⟩⟩
          draws := s2.draws
          sess := { s.sess with rdC := s2.sess.rdC, rdQ := s2.sess.rdQ } }
      ∧ ∀ t, ∃ u, exec (.blkInvalid t) s = .next u ∧ faulted (.blockType t) s u)
    ∧ ∀ (s s1 : State) (hi : Nat) (i : Instr),
      i = .blkVerbatim ∨ i = .blkAligned ∨ i = .blkUncomp ∨ (∃ t, i = .blkInvalid t) →
      (∀ e d, readBits 16 (begin s) = .raise e d → ∃ t, exec i s = .next t ∧ faulted .bitsExhausted s t)
      ∧ (readBits 16 (begin s) = .ok hi s1 → ∀ e d, readBits 8 s1 = .raise e d →
        ∃ t, exec i s = .next t ∧ faulted .bitsExhausted s t)

/-- UNCOMP_ALIGN_R (43_lzx_blocks.md R119, R115, R120): the reader realigns to its 16-bit word boundary (41_bit_reader.md
R98), three little-endian words load R0, R1, R2, the block's type and length are written, and its data follows, or the
next block header if its length is 0, at an even cursor with UNCOMP_ODD_PAD = 1 (R100; from an odd one, which no run has
here, the model's choice, log entry 21); words cut off by the frame's end fault. -/
def Obligations.UncompHeader : Prop :=
  (∀ (s s1 s2 s3 : State) (h : BlockHdr) (w0 w1 w2 : Word), awaited s = .uncompAlignR h →
      readWord32 (align16 (begin s)) = .ok w0 s1 → readWord32 s1 = .ok w1 s2 → readWord32 s2 = .ok w2 s3 →
      exec .uncompAlignR s = .next { s with
          pend := none
          draws := s3.draws
          sess := { s.sess with
            rdC :=
              if h.len = 0 ∧ s.cfg.oddPad = true then alignedCursor s.sess + 12 + (alignedCursor s.sess + 12) % 2
              else alignedCursor s.sess + 12
            rdQ := []
            r0 := w0, r1 := w1, r2 := w2
            blockType := h.type, blockLen := h.len, blockRem := h.len
            ds := if h.len = 0 then .blockHdr else .decUncomp } }
      ∧ ∀ k b, k < 4 →
        (s.inp.get? (s.sess.frameBase + alignedCursor s.sess + k) = some b → w0.extractLsb' (8 * k) 8 = b)
        ∧ (s.inp.get? (s.sess.frameBase + alignedCursor s.sess + 4 + k) = some b →
            w1.extractLsb' (8 * k) 8 = b)
        ∧ (s.inp.get? (s.sess.frameBase + alignedCursor s.sess + 8 + k) = some b →
            w2.extractLsb' (8 * k) 8 = b))
    ∧ ∀ (s : State) (h : BlockHdr), awaited s = .uncompAlignR h →
      s.sess.frameLen < alignedCursor s.sess + 12 →
      ∃ t, exec .uncompAlignR s = .next t ∧ faulted .bytesExhausted s t

/-! ## Tree descriptions -/

/-- ALIGNED_LENS and PRETREE (43_lzx_blocks.md R121, R124): the lengths are stored as read, in order, and built; then the first
pass, or the pass's first symbol, is awaited; lengths neither complete nor empty fault. In order: one field after the
other, each from where the one before it ended. -/
def Obligations.TreeLengths : Prop :=
  (∀ (n : Nat) (s : State), readFields n 0 s = .ok [] s
      ∧ ∀ k : Nat,
        (∀ v s1 vs s2, readBits n s = .ok v s1 → readFields n k s1 = .ok vs s2 →
          readFields n (k + 1) s = .ok (v :: vs) s2)
        ∧ (∀ e d, readBits n s = .raise e d → readFields n (k + 1) s = .raise e d)
        ∧ ∀ v s1 e d, readBits n s = .ok v s1 → readFields n k s1 = .raise e d →
          readFields n (k + 1) s = .raise e d)
    ∧ (∀ (s s1 : State) (h : BlockHdr) (ls : List Nat), awaited s = .alignedLens h →
      readFields 3 8 (begin s) = .ok ls s1 →
      (kraft ls = 65536 ∨ kraft ls = 0 → exec .alignedLens s = .next { s with
          pend := some ⟨s.seen, .pretree h .mainLow⟩
          draws := s1.draws
          sess := { s.sess with rdC := s1.sess.rdC, rdQ := s1.sess.rdQ, alLen := ls } })
      ∧ (kraft ls ≠ 65536 → kraft ls ≠ 0 → ∃ t, exec .alignedLens s = .next t ∧ faulted .alignedInvalid s t))
    ∧ (∀ (s s1 : State) (h : BlockHdr) (p : Pass) (ls : List Nat), s.cfg.valid = true →
      awaited s = .pretree h p → readFields 4 20 (begin s) = .ok ls s1 →
      (kraft ls = 65536 ∨ kraft ls = 0 → exec .pretree s = .next { s with
          pend := some ⟨s.seen, .preSym h p (if p = .mainHigh then 256 else 0)⟩
          draws := s1.draws
          sess := { s.sess with rdC := s1.sess.rdC, rdQ := s1.sess.rdQ, preLen := ls } })
      ∧ (kraft ls ≠ 65536 → kraft ls ≠ 0 → ∃ t, exec .pretree s = .next t ∧ faulted .pretreeInvalid s t))
    ∧ ∀ s : State,
      (∀ h e d, awaited s = .alignedLens h → readFields 3 8 (begin s) = .raise e d →
        ∃ t, exec .alignedLens s = .next t ∧ faulted .bitsExhausted s t)
      ∧ (∀ h p e d, awaited s = .pretree h p → readFields 4 20 (begin s) = .raise e d →
        ∃ t, exec .pretree s = .next t ∧ faulted .bitsExhausted s t)

/-- PRE_DELTA, PRE_ZERO_SHORT, PRE_ZERO_LONG and PRE_REPEAT inside a pass (43_lzx_blocks.md R125 to R128): exactly the run's
entries of the pass's array are written, with the value the rule gives, and the next symbol is awaited behind the run. -/
def Obligations.PreRuns : Prop :=
  ∀ (i : Instr) (h : BlockHdr) (p : Pass) (x k v : Nat) (s s1 : State), awaited s = .preSym h p x →
    preRun p x i s k v s1 → x + k < p.last s.cfg →
    ∃ (arr : List Nat) (t : State), exec i s = .next t ∧ runWritten p x k v s arr
      ∧ t = p.setArr arr { s with
          pend := some ⟨s.seen, .preSym h p (x + k)⟩
          draws := s1.draws
          sess := { s.sess with rdC := s1.sess.rdC, rdQ := s1.sess.rdQ } }

/-- The same four at the end of a pass (43_lzx_blocks.md R122, R115, R120): after pass 1 comes pass 2; after pass 2 the
maintree is built and pass 3 follows; after pass 3 the length tree is built and the block begins, or ends at once if
its length is 0. -/
def Obligations.PassEnds : Prop :=
  ∀ (i : Instr) (h : BlockHdr) (p : Pass) (x k v : Nat) (s s1 : State), awaited s = .preSym h p x →
    h.type = 1 ∨ h.type = 2 → preRun p x i s k v s1 → x + k = p.last s.cfg →
    ∃ (arr : List Nat) (t : State), exec i s = .next t ∧ runWritten p x k v s arr
      ∧ passEnded h p s (p.setArr arr { s with
          draws := s1.draws
          sess := { s.sess with rdC := s1.sess.rdC, rdQ := s1.sess.rdQ } }) t

/-- A run that passes the end of the array faults before anything is written, and before the repeated symbol is decoded; a
repeated symbol that is no length faults (43_lzx_blocks.md R126 to R128). -/
def Obligations.RunFaults : Prop :=
  ∀ (h : BlockHdr) (p : Pass) (x f : Nat) (s s1 : State), awaited s = .preSym h p x →
    (readBits 4 (begin s) = .ok f s1 → p.last s.cfg < x + f + 4 →
        ∃ t, exec .preZeroShort s = .next t ∧ faulted .runOverflow s t)
      ∧ (readBits 5 (begin s) = .ok f s1 → p.last s.cfg < x + f + 20 →
        ∃ t, exec .preZeroLong s = .next t ∧ faulted .runOverflow s t)
      ∧ (readBits 1 (begin s) = .ok f s1 → p.last s.cfg < x + f + 4 →
        ∃ t, exec .preRepeat s = .next t ∧ faulted .runOverflow s t)
      ∧ (readBits 1 (begin s) = .ok f s1 → x + f + 4 ≤ p.last s.cfg →
        ∀ z2 s2, decodeSymbol .pre s1 = .ok z2 s2 → 16 < z2 →
        ∃ t, exec .preRepeat s = .next t ∧ faulted .repeatSymbolInvalid s t)

/-! ## Symbols -/

/-- MAIN_LITERAL (44_lzx_symbols.md R129, R130, R133): the byte enters `OUT` and the window, the counts move by one, and the
step ends where R130 says. Where that is the frame's end, R101 discards the reader's leftover; that the cursor and the
accumulator stay in place, unread, is the model's choice (log entry 19). -/
def Obligations.LiteralResult : Prop :=
  ∀ (b : Byte) (s : State), s.sess.blockType ≠ 3 → ∃ t, exec (.mainLiteral b) s = .next t
    ∧ t = { s with
        pend := none
        out := t.out
        sess := { s.sess with
          win := t.sess.win
          wpos := (s.sess.wpos + 1) % s.cfg.windowSize
          written := min (s.sess.written + 1) s.cfg.windowSize
          produced := s.sess.produced + 1
          blockRem := s.sess.blockRem - 1
          frameRem := s.sess.frameRem - 1
          ds := (afterCounts s.sess (s.sess.blockRem - 1) (s.sess.frameRem - 1)).1
          inPos := (afterCounts s.sess (s.sess.blockRem - 1) (s.sess.frameRem - 1)).2 } }
    ∧ (∀ a, t.out.get? a = if a = s.sess.produced then some b else s.out.get? a)
    ∧ ∀ j, t.sess.win.get? j = if j = s.sess.wpos then some b else s.sess.win.get? j

/-- RAW_BYTE and ODD_PAD (44_lzx_symbols.md R129 to R131, R143): the byte enters `OUT` and the window; at the block's end the
reader restarts, behind the pad byte where one is due, and that byte is neither read nor checked. The pad is due
by the whole block's length (R131). With UNCOMP_ODD_PAD = 1 the restarted reader stands at an even cursor (41_bit_reader.md
R100, 20_memory.md R54); where a block split over frames leaves it odd, that it goes on to the next even one, after
90_conflicts.md C10, is the model's choice (log entry 21). That the reader's leftover stays in place, unread, at a frame's
end, where R101 discards it, is another (log entry 19). -/
def Obligations.RawBytes : Prop :=
  (∀ (b : Byte) (s : State), s.sess.blockType = 3 → ∃ t, exec (.rawByte b) s = .next t
      ∧ (let padDue := s.sess.blockRem - 1 = 0 ∧ s.cfg.oddPad = true ∧ s.sess.blockLen % 2 = 1
        let sess' : Session := { s.sess with
          win := t.sess.win
          wpos := (s.sess.wpos + 1) % s.cfg.windowSize
          written := min (s.sess.written + 1) s.cfg.windowSize
          produced := s.sess.produced + 1
          blockRem := s.sess.blockRem - 1
          frameRem := s.sess.frameRem - 1 }
        (padDue → t = { s with pend := some ⟨s.seen, .oddPad⟩, out := t.out, sess := sess' })
        ∧ (¬ padDue → t = { s with
            pend := none
            out := t.out
            sess := { sess' with
              rdC := if s.sess.blockRem - 1 = 0 ∧ s.cfg.oddPad = true then s.sess.rdC + s.sess.rdC % 2 else s.sess.rdC
              rdQ := if s.sess.blockRem - 1 = 0 then [] else s.sess.rdQ
              ds := (afterCounts s.sess (s.sess.blockRem - 1) (s.sess.frameRem - 1)).1
              inPos := (afterCounts s.sess (s.sess.blockRem - 1) (s.sess.frameRem - 1)).2 } }))
      ∧ (∀ a, t.out.get? a = if a = s.sess.produced then some b else s.out.get? a)
      ∧ ∀ j, t.sess.win.get? j = if j = s.sess.wpos then some b else s.sess.win.get? j)
    ∧ ∀ s : State, awaited s = .oddPad → exec .oddPad s = .next { s with
        pend := none
        sess := { s.sess with
          rdC := if s.cfg.oddPad = true then s.sess.rdC + 1 + (s.sess.rdC + 1) % 2 else s.sess.rdC + 1
          rdQ := []
          ds := (afterCounts s.sess s.sess.blockRem s.sess.frameRem).1
          inPos := (afterCounts s.sess s.sess.blockRem s.sess.frameRem).2 } }

/-- The position slots (30_encoding.md R77): the footer bits of each slot; each slot's offsets start where the slot before
ends, so that every explicit offset is read from exactly one slot, and every slot an instance has stays inside its
window. -/
def Obligations.SlotRanges : Prop :=
  (∀ slot : Nat, extraBits slot = if slot < 4 then 0 else slot / 2 - 1)
    ∧ (slotBase 0 = 0 ∧ ∀ slot : Nat, slotBase (slot + 1) = slotBase slot + 2 ^ extraBits slot)
    ∧ (∀ p : Params, p.valid = true → ∀ slot v : Nat, 3 ≤ slot → slot < p.numPositionSlots → v < 2 ^ extraBits slot →
        1 ≤ slotBase slot - 2 + v ∧ slotBase slot - 2 + v + 2 < p.windowSize)
    ∧ ∀ off : Nat, 1 ≤ off → off + 2 < 2 ^ 18 →
        ∃! sv : Nat × Nat, 3 ≤ sv.1 ∧ sv.1 < 36 ∧ sv.2 < 2 ^ extraBits sv.1 ∧ off = slotBase sv.1 - 2 + sv.2

/-- The copy (44_lzx_symbols.md R141): byte `k` of the copy is the window byte `off - k mod off` behind the write position, so
an overlapping copy repeats with period `off`; exactly the copy's bytes of `OUT` and cells of the window change. -/
def Obligations.CopyMatch : Prop :=
  ∀ (len off : Nat) (s : State), sessionHistory s.cfg s.sess → 0 < off → off ≤ s.sess.written →
    len ≤ s.cfg.windowSize →
    let t := copyMatch len off s
    t = { s with
        out := t.out
        sess := { s.sess with
          win := t.sess.win
          wpos := (s.sess.wpos + len) % s.cfg.windowSize
          written := min (s.sess.written + len) s.cfg.windowSize
          produced := s.sess.produced + len } }
      ∧ (∀ a, t.out.get? a =
          if s.sess.produced ≤ a ∧ a < s.sess.produced + len then
            s.sess.win.get? (copySource s.cfg s.sess off (a - s.sess.produced))
          else s.out.get? a)
      ∧ (∀ k, k < len → t.sess.win.get? ((s.sess.wpos + k) % s.cfg.windowSize) = t.out.get? (s.sess.produced + k))
      ∧ ∀ j, (∀ k, k < len → j ≠ (s.sess.wpos + k) % s.cfg.windowSize) →
          t.sess.win.get? j = s.sess.win.get? j

/-- A match that is allowed completes (44_lzx_symbols.md R132, R134 to R141): MATCH_R0, MATCH_R1, MATCH_R2 and MATCH_S3 to
MATCH_S35 with a length header below 7, LEN_FOOTER, and ALIGNED_SYM. The footers move the reader alone; the copy, the new
registers, the counts and the next state are as the rules say, and nothing else changes. Where the match ends the frame,
R101 discards the reader's leftover; that the cursor and the accumulator stay in place, unread, is the model's choice
(log entry 19). -/
def Obligations.MatchResult : Prop :=
  ∀ (i : Instr) (s s1 : State) (slot len off : Nat), matchOperands i s slot len off s1 →
    s.sess.blockType ≠ 3 → sessionHistory s.cfg s.sess → len ≤ s.cfg.windowSize → matchAllowed len off s →
    readerOnly (begin s) s1
      ∧ ∃ t, exec i s = .next t ∧ matched len off (matchRegs s.cfg.slot2Mode slot off s.sess.regs) s1 t

/-- A match that is not allowed faults, the first failing test of 44_lzx_symbols.md R140 naming the fault: length over the
block or frame, offset 0, offset beyond the window, offset beyond the history. -/
def Obligations.MatchFaults : Prop :=
  ∀ (i : Instr) (s s1 : State) (slot len off : Nat), matchOperands i s slot len off s1 →
    (min s.sess.blockRem s.sess.frameRem < len → ∃ t, exec i s = .next t ∧ faulted .matchOverrun s t)
      ∧ (len ≤ min s.sess.blockRem s.sess.frameRem → off = 0 → ∃ t, exec i s = .next t ∧ faulted .offsetZero s t)
      ∧ (len ≤ min s.sess.blockRem s.sess.frameRem → off ≠ 0 → s.cfg.windowSize < off →
          ∃ t, exec i s = .next t ∧ faulted .offsetBeyondWindow s t)
      ∧ (len ≤ min s.sess.blockRem s.sess.frameRem → off ≠ 0 → off ≤ s.cfg.windowSize → s.sess.written < off →
          ∃ t, exec i s = .next t ∧ faulted .offsetBeyondHistory s t)

/-- A match whose length header is 7 awaits its length footer, and one with an explicit slot of 3 or more extra bits in an
Aligned block its aligned footer, in the same step (44_lzx_symbols.md R134, R138, R139); the same after a length
footer. Nothing else changes. -/
def Obligations.MatchAwaits : Prop :=
  (∀ (slot : Nat) (lh : BitVec 3) (i : Instr) (s : State), Instr.ofSlot slot lh = some i →
      (lh = 7 → exec i s = .next { s with pend := some ⟨s.seen, .lenFooter slot⟩ })
      ∧ (lh ≠ 7 → 3 ≤ slot → s.sess.blockType = 2 → 3 ≤ extraBits slot →
          exec i s = .next { s with pend := some ⟨s.seen, .alignedSym slot (lh.toNat + 2)⟩ }))
    ∧ ∀ (slot v : Nat) (s s1 : State), awaited s = .lenFooter slot → decodeSymbol .len (begin s) = .ok v s1 →
      3 ≤ slot → s.sess.blockType = 2 → 3 ≤ extraBits slot →
      exec .lenFooter s = .next { s with
        pend := some ⟨s.seen, .alignedSym slot (9 + v)⟩
        draws := s1.draws
        sess := { s.sess with rdC := s1.sess.rdC, rdQ := s1.sess.rdQ } }

/-- The repeated-offset law (44_lzx_symbols.md R142): over a completed match the registers change by its slot alone; a
faulting match leaves them; and of the other elements only an Uncompressed block header loads them. The registers before
are the committed ones, which the live ones equal in every legal state. -/
def Obligations.RepeatedOffsetLaw : Prop :=
  (∀ (i : Instr) (s s1 t : State) (slot len off : Nat), matchOperands i s slot len off s1 →
      s.sess.blockType ≠ 3 → s.seen.regs = s.sess.regs → exec i s = .next t →
      (∃ e, faulted e s t ∧ t.seen.regs = s.seen.regs)
        ∨ t.seen.regs = matchRegs s.cfg.slot2Mode slot off s.seen.regs)
    ∧ ∀ (i : Instr) (s t : State), isHost i = false → i ≠ .uncompAlignR → s.seen.regs = s.sess.regs →
      (∀ slot len, awaited s = .alignedSym slot len → 3 ≤ slot) →
      (∀ slot len off s1, ¬ matchOperands i s slot len off s1) → exec i s = .next t →
      t.seen.regs = s.seen.regs

/-- The cursor is even whenever UNCOMP_ODD_PAD = 1, outside the data of an Uncompressed block (20_memory.md R54,
41_bit_reader.md R98, R100, 90_conflicts.md C10): so after reset, and every step from a legal state keeps it. Behind an
Uncompressed block that lies in one frame the pad byte of R131 alone makes it so, and `reinit` leaves the cursor as it is
(R100); behind a block split over frames `reinit` can move it by one, the model's choice (log entry 21). -/
def Obligations.EvenCursor : Prop :=
  (∀ p : Params, cursorOk (State.resetOf p))
    ∧ (∀ s t : State, legal s = true → cursorOk s → step s = .next t → cursorOk t)
    ∧ (∀ s : State, legal s = true → cursorOk s → s.cfg.oddPad = true → s.busy = true → s.pend = none → s.sched = [] →
      s.sess.ds = .decUncomp → s.sess.blockRem = 1 → s.sess.blockLen ≤ s.sess.frameSize - s.sess.frameRem + 1 →
      s.sess.rdC < s.sess.frameLen →
      ∃ t, step s = .next t ∧ t.sess.rdC = s.sess.rdC + 1
        ∧ (s.sess.blockLen % 2 = 1 → awaited t = .oddPad) ∧ (s.sess.blockLen % 2 = 0 → t.pend = none))
    ∧ ∀ s : State, legal s = true → cursorOk s → s.cfg.oddPad = true → awaited s = .oddPad →
      s.sess.blockLen ≤ s.sess.frameSize - s.sess.frameRem →
      ∃ t, step s = .next t ∧ t.sess.rdC = s.sess.rdC + 1 ∧ t.pend = none
end

