-- ==== Sys2Proof/Laws/Memory.lean ====
section
/-! SUPPORT. What the memory operations do: the read-after-write laws, and that every operation keeps the canonical form
and the bound of the offsets. -/

namespace Sys2Proof.Machine

/-! ## Canonical form -/

theorem Memory.wf_cons (a : Nat) (b : Byte) (m : Memory) :
    Memory.wf ((a, b) :: m) = true ↔ Memory.wf m = true ∧ ∀ c ∈ m, a < c.1 := by
  induction m generalizing a b with
  | nil => simp [Memory.wf]
  | cons hd tl ih =>
    obtain ⟨a', b'⟩ := hd
    simp only [Memory.wf, Bool.and_eq_true, decide_eq_true_eq]
    constructor
    · rintro ⟨hlt, h⟩
      refine ⟨h, fun c hc => ?_⟩
      rcases List.mem_cons.mp hc with rfl | hc
      · exact hlt
      · exact Nat.lt_trans hlt (((ih a' b').mp h).2 c hc)
    · rintro ⟨h, hall⟩
      exact ⟨hall (a', b') (List.mem_cons_self ..), h⟩

/-- A cell of the memory after a write is the written one or an old one. -/
theorem Memory.mem_set {m : Memory} {a : Nat} {b : Byte} {c : Host.Cell} (h : c ∈ m.set a b) :
    c = (a, b) ∨ c ∈ m := by
  induction m with
  | nil => simpa [Memory.set] using h
  | cons hd tl ih =>
    obtain ⟨a', b'⟩ := hd
    simp only [Memory.set] at h
    split at h
    · rcases List.mem_cons.mp h with h | h
      · exact .inl h
      · exact .inr h
    · split at h
      · rcases List.mem_cons.mp h with h | h
        · exact .inl h
        · exact .inr (List.mem_cons_of_mem _ h)
      · rcases List.mem_cons.mp h with h | h
        · exact .inr (h ▸ List.mem_cons_self ..)
        · exact (ih h).imp_right (List.mem_cons_of_mem _)

/-- A write keeps the canonical form. -/
theorem Memory.wf_set {m : Memory} (h : m.wf = true) (a : Nat) (b : Byte) : (m.set a b).wf = true := by
  induction m with
  | nil => simp [Memory.set, Memory.wf]
  | cons hd tl ih =>
    obtain ⟨a', b'⟩ := hd
    obtain ⟨htl, hall⟩ := (Memory.wf_cons a' b' tl).mp h
    simp only [Memory.set]
    split
    · next hlt =>
      refine (Memory.wf_cons ..).mpr ⟨h, fun c hc => ?_⟩
      rcases List.mem_cons.mp hc with rfl | hc
      · exact hlt
      · exact Nat.lt_trans hlt (hall c hc)
    · split
      · next _ heq =>
        exact (Memory.wf_cons ..).mpr ⟨htl, fun c hc => heq ▸ hall c hc⟩
      · next hnlt hne =>
        refine (Memory.wf_cons ..).mpr ⟨ih htl, fun c hc => ?_⟩
        rcases Memory.mem_set hc with rfl | hc
        · exact Nat.lt_of_le_of_ne (Nat.le_of_not_lt hnlt) (Ne.symm hne)
        · exact hall c hc

theorem Memory.below_iff (n : Nat) (m : Memory) : m.below n = true ↔ ∀ c ∈ m, c.1 < n := by
  simp [Memory.below]

/-- A write below the bound keeps the bound. -/
theorem Memory.below_set {m : Memory} {n a : Nat} (h : m.below n = true) (ha : a < n) (b : Byte) :
    (m.set a b).below n = true := by
  rw [Memory.below_iff] at *
  intro c hc
  rcases Memory.mem_set hc with rfl | hc
  · exact ha
  · exact h c hc

/-! ## Reads after writes -/

/-- Below the first listed offset nothing is listed. -/
theorem Memory.get?_of_lt {m : Memory} {a : Nat} (h : ∀ c ∈ m, a < c.1) : m.get? a = none := by
  induction m with
  | nil => rfl
  | cons hd tl ih =>
    obtain ⟨a', b'⟩ := hd
    have ha : a < a' := h (a', b') (List.mem_cons_self ..)
    simp only [Memory.get?, if_neg (Nat.ne_of_lt ha)]
    exact ih fun c hc => h c (List.mem_cons_of_mem _ hc)

/-- The read-after-write law: the written cell holds the byte, every other cell what it held. -/
theorem Memory.get?_set (m : Memory) (a : Nat) (b : Byte) (a' : Nat) :
    (m.set a b).get? a' = if a' = a then some b else m.get? a' := by
  induction m with
  | nil => simp [Memory.set, Memory.get?]
  | cons hd tl ih =>
    obtain ⟨x, y⟩ := hd
    simp only [Memory.set]
    split
    · simp only [Memory.get?]
    · split
      · next heq =>
        subst heq
        simp only [Memory.get?]
        split
        · rfl
        · rfl
      · next hne =>
        simp only [Memory.get?, ih]
        by_cases h1 : a' = x
        · subst h1
          simp [Ne.symm hne]
        · simp [h1]

@[simp] theorem Memory.get?_set_self (m : Memory) (a : Nat) (b : Byte) : (m.set a b).get? a = some b := by
  rw [Memory.get?_set, if_pos rfl]

theorem Memory.get?_set_ne (m : Memory) {a a' : Nat} (b : Byte) (h : a' ≠ a) :
    (m.set a b).get? a' = m.get? a' := by
  rw [Memory.get?_set, if_neg h]

/-! ## Reading a cell -/

/-- A read of a written cell gives its byte and changes nothing (20_memory.md R49, R57). -/
theorem readCell_some {s : State} {m : Memory} {a : Nat} {b : Byte} (h : m.get? a = some b) :
    s.readCell m a = (b, s) := by
  unfold State.readCell
  rw [h]

/-- A read of an unwritten cell is a fresh draw (20_memory.md R49). -/
theorem readCell_none {s : State} {m : Memory} {a : Nat} (h : m.get? a = none) :
    s.readCell m a = (Config.draw s.draws, s.countDraw) := by
  unfold State.readCell
  rw [h]

theorem drawsOnly_refl (s : State) : drawsOnly s s := rfl

theorem drawsOnly_trans {s t u : State} (h : drawsOnly s t) (h' : drawsOnly t u) : drawsOnly s u := by
  unfold drawsOnly at *
  rw [h', h]

/-- All a read does to the state: it may count a draw. -/
theorem readCell_drawsOnly (s : State) (m : Memory) (a : Nat) : drawsOnly s (s.readCell m a).2 := by
  unfold State.readCell
  split <;> rfl

theorem readIn_drawsOnly (s : State) (a : Nat) : drawsOnly s (s.readIn a).2 := readCell_drawsOnly s s.inp a

theorem readIn_some {s : State} {a : Nat} {b : Byte} (h : s.inp.get? a = some b) : s.readIn a = (b, s) :=
  readCell_some h

theorem readLe32_drawsOnly (s : State) (a : Nat) : drawsOnly s (s.readLe32 a).2 :=
  drawsOnly_trans (readIn_drawsOnly s a) (drawsOnly_trans (readIn_drawsOnly _ (a + 1))
    (drawsOnly_trans (readIn_drawsOnly _ (a + 2)) (readIn_drawsOnly _ (a + 3))))

theorem drawsOnly_inp {s t : State} (h : drawsOnly s t) : t.inp = s.inp := by rw [h]
theorem drawsOnly_out {s t : State} (h : drawsOnly s t) : t.out = s.out := by rw [h]
theorem drawsOnly_sess {s t : State} (h : drawsOnly s t) : t.sess = s.sess := by rw [h]
theorem drawsOnly_pend {s t : State} (h : drawsOnly s t) : t.pend = s.pend := by rw [h]
theorem drawsOnly_cfg {s t : State} (h : drawsOnly s t) : t.cfg = s.cfg := by rw [h]
theorem drawsOnly_inLen {s t : State} (h : drawsOnly s t) : t.inLen = s.inLen := by rw [h]
theorem drawsOnly_seen {s t : State} (h : drawsOnly s t) : t.seen = s.seen := by rw [h]; rfl

/-- The count of draws never falls. -/
theorem readCell_draws_le (s : State) (m : Memory) (a : Nat) : s.draws ≤ (s.readCell m a).2.draws := by
  unfold State.readCell
  split
  · exact Nat.le_refl _
  · exact Nat.le_succ _

/-! ## The host's writes -/

/-- The bytes a host write stores (46_host_interface.md R161). -/
theorem get?_writeBytes (n a : Nat) (v : Word) (m : Memory) (a' : Nat) :
    (writeBytes n a v m).get? a' =
      if a ≤ a' ∧ a' < a + n then some (v.extractLsb' (8 * (a' - a)) 8) else m.get? a' := by
  induction n generalizing a v m with
  | zero => simp [writeBytes]
  | succ n ih =>
    rw [writeBytes, ih, Memory.get?_set]
    by_cases h0 : a' = a
    · subst h0
      rw [if_neg (by omega), if_pos rfl, if_pos (by omega), Nat.sub_self]
    · by_cases h1 : a + 1 ≤ a' ∧ a' < a + 1 + n
      · rw [if_pos h1, if_pos (by omega)]
        congr 1
        apply BitVec.eq_of_getLsbD_eq
        intro i hi
        simp only [BitVec.getLsbD_extractLsb', BitVec.getLsbD_ushiftRight]
        rw [show 8 + (8 * (a' - (a + 1)) + i) = 8 * (a' - a) + i by omega]
      · rw [if_neg h1, if_neg h0, if_neg (by omega)]

theorem wf_writeBytes (n a : Nat) (v : Word) {m : Memory} (h : m.wf = true) : (writeBytes n a v m).wf = true := by
  induction n generalizing a v m with
  | zero => exact h
  | succ n ih => exact ih _ _ (Memory.wf_set h _ _)

theorem below_writeBytes {c : Nat} (n a : Nat) (v : Word) {m : Memory} (h : m.below c = true) (hc : a + n ≤ c) :
    (writeBytes n a v m).below c = true := by
  induction n generalizing a v m with
  | zero => exact h
  | succ n ih => exact ih _ _ (Memory.below_set h (by omega) _) (by omega)

end Sys2Proof.Machine
end

