-- ==== Sys2Proof/Laws/Res.lean ====
section
/-! SUPPORT. Reasoning about pieces of pseudocode: what a piece gives when it succeeds and which faults it may raise. A
piece with a postcondition is never refused. -/

namespace Sys2Proof.Machine

/-- `x` succeeds with a value and state in `P`, or raises a fault in `E`; it is not refused. -/
def Res.post {α : Type} (x : Res α) (P : α → State → Prop) (E : SessionError → Prop) : Prop :=
  match x with
  | .ok a s => P a s
  | .raise e _ => E e
  | .refuse _ => False

namespace Res

variable {α β : Type} {P P' : α → State → Prop} {Q : β → State → Prop} {E E' : SessionError → Prop}

@[simp] theorem post_ok (a : α) (s : State) : (Res.ok a s).post P E ↔ P a s := Iff.rfl
@[simp] theorem post_raise (e : SessionError) (d : Nat) : (Res.raise e d : Res α).post P E ↔ E e := Iff.rfl
@[simp] theorem post_refuse (r : Refusal) : (Res.refuse r : Res α).post P E ↔ False := Iff.rfl

@[simp] theorem ok_bind (a : α) (s : State) (f : α → State → Res β) : (Res.ok a s).bind f = f a s := rfl
@[simp] theorem raise_bind (e : SessionError) (d : Nat) (f : α → State → Res β) :
    (Res.raise e d).bind f = .raise e d := rfl
@[simp] theorem refuse_bind (r : Refusal) (f : α → State → Res β) : (Res.refuse r).bind f = .refuse r := rfl

/-- Sequencing: what follows starts from what the first part gives. -/
theorem post_bind {x : Res α} {f : α → State → Res β} (hx : x.post P E)
    (hf : ∀ a s, P a s → (f a s).post Q E) : (x.bind f).post Q E := by
  cases x with
  | ok a s => exact hf a s hx
  | raise e d => exact hx
  | refuse r => exact hx.elim

theorem post_mono {x : Res α} (hx : x.post P E) (hP : ∀ a s, P a s → P' a s) (hE : ∀ e, E e → E' e) :
    x.post P' E' := by
  cases x with
  | ok a s => exact hP a s hx
  | raise e d => exact hE e hx
  | refuse r => exact hx.elim

theorem post_and {x : Res α} (h : x.post P E) (h' : x.post P' E') :
    x.post (fun a s => P a s ∧ P' a s) (fun e => E e ∧ E' e) := by
  cases x with
  | ok a s => exact ⟨h, h'⟩
  | raise e d => exact ⟨h, h'⟩
  | refuse r => exact h.elim

/-- A successful sequence is two successes. -/
theorem bind_eq_ok {x : Res α} {f : α → State → Res β} {b : β} {t : State} :
    x.bind f = .ok b t ↔ ∃ a s, x = .ok a s ∧ f a s = .ok b t := by
  cases x with
  | ok a s =>
    constructor
    · intro h
      exact ⟨a, s, rfl, h⟩
    · rintro ⟨a', s', h, h'⟩
      cases h
      exact h'
  | raise e d => simp
  | refuse r => simp

end Res

end Sys2Proof.Machine
end

