-- ==== Sys2Proof/Laws/State.lean ====
section
/-! SUPPORT. One lemma per field per update of the state, true by definition, so that no proof unfolds a record update. -/

namespace Sys2Proof.Machine

/-! ### `State.setSess` -/

@[simp] theorem State.setSess_cfg (s : State) (t : Session) : (s.setSess t).cfg = s.cfg := rfl
@[simp] theorem State.setSess_sess (s : State) (t : Session) : (s.setSess t).sess = t := rfl
@[simp] theorem State.setSess_pend (s : State) (t : Session) : (s.setSess t).pend = s.pend := rfl
@[simp] theorem State.setSess_inp (s : State) (t : Session) : (s.setSess t).inp = s.inp := rfl
@[simp] theorem State.setSess_out (s : State) (t : Session) : (s.setSess t).out = s.out := rfl
@[simp] theorem State.setSess_irqEn (s : State) (t : Session) : (s.setSess t).irqEn = s.irqEn := rfl
@[simp] theorem State.setSess_busy (s : State) (t : Session) : (s.setSess t).busy = s.busy := rfl
@[simp] theorem State.setSess_done (s : State) (t : Session) : (s.setSess t).done = s.done := rfl
@[simp] theorem State.setSess_failed (s : State) (t : Session) : (s.setSess t).failed = s.failed := rfl
@[simp] theorem State.setSess_e8Present (s : State) (t : Session) : (s.setSess t).e8Present = s.e8Present := rfl
@[simp] theorem State.setSess_compressed (s : State) (t : Session) : (s.setSess t).compressed = s.compressed := rfl
@[simp] theorem State.setSess_cmdIgnored (s : State) (t : Session) : (s.setSess t).cmdIgnored = s.cmdIgnored := rfl
@[simp] theorem State.setSess_errCause (s : State) (t : Session) : (s.setSess t).errCause = s.errCause := rfl
@[simp] theorem State.setSess_errDetail (s : State) (t : Session) : (s.setSess t).errDetail = s.errDetail := rfl
@[simp] theorem State.setSess_errPos (s : State) (t : Session) : (s.setSess t).errPos = s.errPos := rfl
@[simp] theorem State.setSess_inLen (s : State) (t : Session) : (s.setSess t).inLen = s.inLen := rfl
@[simp] theorem State.setSess_outLen (s : State) (t : Session) : (s.setSess t).outLen = s.outLen := rfl
@[simp] theorem State.setSess_hdrPlatform (s : State) (t : Session) : (s.setSess t).hdrPlatform = s.hdrPlatform := rfl
@[simp] theorem State.setSess_hdrVersion (s : State) (t : Session) : (s.setSess t).hdrVersion = s.hdrVersion := rfl
@[simp] theorem State.setSess_hdrFlags (s : State) (t : Session) : (s.setSess t).hdrFlags = s.hdrFlags := rfl
@[simp] theorem State.setSess_hdrFileSize (s : State) (t : Session) : (s.setSess t).hdrFileSize = s.hdrFileSize := rfl
@[simp] theorem State.setSess_hdrDecSize (s : State) (t : Session) : (s.setSess t).hdrDecSize = s.hdrDecSize := rfl
@[simp] theorem State.setSess_e8FileSize (s : State) (t : Session) : (s.setSess t).e8FileSize = s.e8FileSize := rfl
@[simp] theorem State.setSess_sched (s : State) (t : Session) : (s.setSess t).sched = s.sched := rfl
@[simp] theorem State.setSess_resp (s : State) (t : Session) : (s.setSess t).resp = s.resp := rfl
@[simp] theorem State.setSess_busErr (s : State) (t : Session) : (s.setSess t).busErr = s.busErr := rfl
@[simp] theorem State.setSess_draws (s : State) (t : Session) : (s.setSess t).draws = s.draws := rfl

/-! ### `State.setPend` -/

@[simp] theorem State.setPend_cfg (s : State) (p : Option Pending) : (s.setPend p).cfg = s.cfg := rfl
@[simp] theorem State.setPend_sess (s : State) (p : Option Pending) : (s.setPend p).sess = s.sess := rfl
@[simp] theorem State.setPend_pend (s : State) (p : Option Pending) : (s.setPend p).pend = p := rfl
@[simp] theorem State.setPend_inp (s : State) (p : Option Pending) : (s.setPend p).inp = s.inp := rfl
@[simp] theorem State.setPend_out (s : State) (p : Option Pending) : (s.setPend p).out = s.out := rfl
@[simp] theorem State.setPend_irqEn (s : State) (p : Option Pending) : (s.setPend p).irqEn = s.irqEn := rfl
@[simp] theorem State.setPend_busy (s : State) (p : Option Pending) : (s.setPend p).busy = s.busy := rfl
@[simp] theorem State.setPend_done (s : State) (p : Option Pending) : (s.setPend p).done = s.done := rfl
@[simp] theorem State.setPend_failed (s : State) (p : Option Pending) : (s.setPend p).failed = s.failed := rfl
@[simp] theorem State.setPend_e8Present (s : State) (p : Option Pending) : (s.setPend p).e8Present = s.e8Present := rfl
@[simp] theorem State.setPend_compressed (s : State) (p : Option Pending) : (s.setPend p).compressed = s.compressed := rfl
@[simp] theorem State.setPend_cmdIgnored (s : State) (p : Option Pending) : (s.setPend p).cmdIgnored = s.cmdIgnored := rfl
@[simp] theorem State.setPend_errCause (s : State) (p : Option Pending) : (s.setPend p).errCause = s.errCause := rfl
@[simp] theorem State.setPend_errDetail (s : State) (p : Option Pending) : (s.setPend p).errDetail = s.errDetail := rfl
@[simp] theorem State.setPend_errPos (s : State) (p : Option Pending) : (s.setPend p).errPos = s.errPos := rfl
@[simp] theorem State.setPend_inLen (s : State) (p : Option Pending) : (s.setPend p).inLen = s.inLen := rfl
@[simp] theorem State.setPend_outLen (s : State) (p : Option Pending) : (s.setPend p).outLen = s.outLen := rfl
@[simp] theorem State.setPend_hdrPlatform (s : State) (p : Option Pending) : (s.setPend p).hdrPlatform = s.hdrPlatform := rfl
@[simp] theorem State.setPend_hdrVersion (s : State) (p : Option Pending) : (s.setPend p).hdrVersion = s.hdrVersion := rfl
@[simp] theorem State.setPend_hdrFlags (s : State) (p : Option Pending) : (s.setPend p).hdrFlags = s.hdrFlags := rfl
@[simp] theorem State.setPend_hdrFileSize (s : State) (p : Option Pending) : (s.setPend p).hdrFileSize = s.hdrFileSize := rfl
@[simp] theorem State.setPend_hdrDecSize (s : State) (p : Option Pending) : (s.setPend p).hdrDecSize = s.hdrDecSize := rfl
@[simp] theorem State.setPend_e8FileSize (s : State) (p : Option Pending) : (s.setPend p).e8FileSize = s.e8FileSize := rfl
@[simp] theorem State.setPend_sched (s : State) (p : Option Pending) : (s.setPend p).sched = s.sched := rfl
@[simp] theorem State.setPend_resp (s : State) (p : Option Pending) : (s.setPend p).resp = s.resp := rfl
@[simp] theorem State.setPend_busErr (s : State) (p : Option Pending) : (s.setPend p).busErr = s.busErr := rfl
@[simp] theorem State.setPend_draws (s : State) (p : Option Pending) : (s.setPend p).draws = s.draws := rfl

/-! ### `State.setReader` -/

@[simp] theorem State.setReader_cfg (s : State) (c : Nat) (q : List QBit) : (s.setReader c q).cfg = s.cfg := rfl
@[simp] theorem State.setReader_sess (s : State) (c : Nat) (q : List QBit) : (s.setReader c q).sess = { s.sess with rdC := c, rdQ := q } := rfl
@[simp] theorem State.setReader_pend (s : State) (c : Nat) (q : List QBit) : (s.setReader c q).pend = s.pend := rfl
@[simp] theorem State.setReader_inp (s : State) (c : Nat) (q : List QBit) : (s.setReader c q).inp = s.inp := rfl
@[simp] theorem State.setReader_out (s : State) (c : Nat) (q : List QBit) : (s.setReader c q).out = s.out := rfl
@[simp] theorem State.setReader_irqEn (s : State) (c : Nat) (q : List QBit) : (s.setReader c q).irqEn = s.irqEn := rfl
@[simp] theorem State.setReader_busy (s : State) (c : Nat) (q : List QBit) : (s.setReader c q).busy = s.busy := rfl
@[simp] theorem State.setReader_done (s : State) (c : Nat) (q : List QBit) : (s.setReader c q).done = s.done := rfl
@[simp] theorem State.setReader_failed (s : State) (c : Nat) (q : List QBit) : (s.setReader c q).failed = s.failed := rfl
@[simp] theorem State.setReader_e8Present (s : State) (c : Nat) (q : List QBit) : (s.setReader c q).e8Present = s.e8Present := rfl
@[simp] theorem State.setReader_compressed (s : State) (c : Nat) (q : List QBit) : (s.setReader c q).compressed = s.compressed := rfl
@[simp] theorem State.setReader_cmdIgnored (s : State) (c : Nat) (q : List QBit) : (s.setReader c q).cmdIgnored = s.cmdIgnored := rfl
@[simp] theorem State.setReader_errCause (s : State) (c : Nat) (q : List QBit) : (s.setReader c q).errCause = s.errCause := rfl
@[simp] theorem State.setReader_errDetail (s : State) (c : Nat) (q : List QBit) : (s.setReader c q).errDetail = s.errDetail := rfl
@[simp] theorem State.setReader_errPos (s : State) (c : Nat) (q : List QBit) : (s.setReader c q).errPos = s.errPos := rfl
@[simp] theorem State.setReader_inLen (s : State) (c : Nat) (q : List QBit) : (s.setReader c q).inLen = s.inLen := rfl
@[simp] theorem State.setReader_outLen (s : State) (c : Nat) (q : List QBit) : (s.setReader c q).outLen = s.outLen := rfl
@[simp] theorem State.setReader_hdrPlatform (s : State) (c : Nat) (q : List QBit) : (s.setReader c q).hdrPlatform = s.hdrPlatform := rfl
@[simp] theorem State.setReader_hdrVersion (s : State) (c : Nat) (q : List QBit) : (s.setReader c q).hdrVersion = s.hdrVersion := rfl
@[simp] theorem State.setReader_hdrFlags (s : State) (c : Nat) (q : List QBit) : (s.setReader c q).hdrFlags = s.hdrFlags := rfl
@[simp] theorem State.setReader_hdrFileSize (s : State) (c : Nat) (q : List QBit) : (s.setReader c q).hdrFileSize = s.hdrFileSize := rfl
@[simp] theorem State.setReader_hdrDecSize (s : State) (c : Nat) (q : List QBit) : (s.setReader c q).hdrDecSize = s.hdrDecSize := rfl
@[simp] theorem State.setReader_e8FileSize (s : State) (c : Nat) (q : List QBit) : (s.setReader c q).e8FileSize = s.e8FileSize := rfl
@[simp] theorem State.setReader_sched (s : State) (c : Nat) (q : List QBit) : (s.setReader c q).sched = s.sched := rfl
@[simp] theorem State.setReader_resp (s : State) (c : Nat) (q : List QBit) : (s.setReader c q).resp = s.resp := rfl
@[simp] theorem State.setReader_busErr (s : State) (c : Nat) (q : List QBit) : (s.setReader c q).busErr = s.busErr := rfl
@[simp] theorem State.setReader_draws (s : State) (c : Nat) (q : List QBit) : (s.setReader c q).draws = s.draws := rfl

/-! ### `State.goto` -/

@[simp] theorem State.goto_cfg (s : State) (d : DState) : (s.goto d).cfg = s.cfg := rfl
@[simp] theorem State.goto_sess (s : State) (d : DState) : (s.goto d).sess = { s.sess with ds := d } := rfl
@[simp] theorem State.goto_pend (s : State) (d : DState) : (s.goto d).pend = s.pend := rfl
@[simp] theorem State.goto_inp (s : State) (d : DState) : (s.goto d).inp = s.inp := rfl
@[simp] theorem State.goto_out (s : State) (d : DState) : (s.goto d).out = s.out := rfl
@[simp] theorem State.goto_irqEn (s : State) (d : DState) : (s.goto d).irqEn = s.irqEn := rfl
@[simp] theorem State.goto_busy (s : State) (d : DState) : (s.goto d).busy = s.busy := rfl
@[simp] theorem State.goto_done (s : State) (d : DState) : (s.goto d).done = s.done := rfl
@[simp] theorem State.goto_failed (s : State) (d : DState) : (s.goto d).failed = s.failed := rfl
@[simp] theorem State.goto_e8Present (s : State) (d : DState) : (s.goto d).e8Present = s.e8Present := rfl
@[simp] theorem State.goto_compressed (s : State) (d : DState) : (s.goto d).compressed = s.compressed := rfl
@[simp] theorem State.goto_cmdIgnored (s : State) (d : DState) : (s.goto d).cmdIgnored = s.cmdIgnored := rfl
@[simp] theorem State.goto_errCause (s : State) (d : DState) : (s.goto d).errCause = s.errCause := rfl
@[simp] theorem State.goto_errDetail (s : State) (d : DState) : (s.goto d).errDetail = s.errDetail := rfl
@[simp] theorem State.goto_errPos (s : State) (d : DState) : (s.goto d).errPos = s.errPos := rfl
@[simp] theorem State.goto_inLen (s : State) (d : DState) : (s.goto d).inLen = s.inLen := rfl
@[simp] theorem State.goto_outLen (s : State) (d : DState) : (s.goto d).outLen = s.outLen := rfl
@[simp] theorem State.goto_hdrPlatform (s : State) (d : DState) : (s.goto d).hdrPlatform = s.hdrPlatform := rfl
@[simp] theorem State.goto_hdrVersion (s : State) (d : DState) : (s.goto d).hdrVersion = s.hdrVersion := rfl
@[simp] theorem State.goto_hdrFlags (s : State) (d : DState) : (s.goto d).hdrFlags = s.hdrFlags := rfl
@[simp] theorem State.goto_hdrFileSize (s : State) (d : DState) : (s.goto d).hdrFileSize = s.hdrFileSize := rfl
@[simp] theorem State.goto_hdrDecSize (s : State) (d : DState) : (s.goto d).hdrDecSize = s.hdrDecSize := rfl
@[simp] theorem State.goto_e8FileSize (s : State) (d : DState) : (s.goto d).e8FileSize = s.e8FileSize := rfl
@[simp] theorem State.goto_sched (s : State) (d : DState) : (s.goto d).sched = s.sched := rfl
@[simp] theorem State.goto_resp (s : State) (d : DState) : (s.goto d).resp = s.resp := rfl
@[simp] theorem State.goto_busErr (s : State) (d : DState) : (s.goto d).busErr = s.busErr := rfl
@[simp] theorem State.goto_draws (s : State) (d : DState) : (s.goto d).draws = s.draws := rfl

/-! ### `State.setR` -/

@[simp] theorem State.setR_cfg (s : State) (a b c : Word) : (s.setR a b c).cfg = s.cfg := rfl
@[simp] theorem State.setR_sess (s : State) (a b c : Word) : (s.setR a b c).sess = { s.sess with r0 := a, r1 := b, r2 := c } := rfl
@[simp] theorem State.setR_pend (s : State) (a b c : Word) : (s.setR a b c).pend = s.pend := rfl
@[simp] theorem State.setR_inp (s : State) (a b c : Word) : (s.setR a b c).inp = s.inp := rfl
@[simp] theorem State.setR_out (s : State) (a b c : Word) : (s.setR a b c).out = s.out := rfl
@[simp] theorem State.setR_irqEn (s : State) (a b c : Word) : (s.setR a b c).irqEn = s.irqEn := rfl
@[simp] theorem State.setR_busy (s : State) (a b c : Word) : (s.setR a b c).busy = s.busy := rfl
@[simp] theorem State.setR_done (s : State) (a b c : Word) : (s.setR a b c).done = s.done := rfl
@[simp] theorem State.setR_failed (s : State) (a b c : Word) : (s.setR a b c).failed = s.failed := rfl
@[simp] theorem State.setR_e8Present (s : State) (a b c : Word) : (s.setR a b c).e8Present = s.e8Present := rfl
@[simp] theorem State.setR_compressed (s : State) (a b c : Word) : (s.setR a b c).compressed = s.compressed := rfl
@[simp] theorem State.setR_cmdIgnored (s : State) (a b c : Word) : (s.setR a b c).cmdIgnored = s.cmdIgnored := rfl
@[simp] theorem State.setR_errCause (s : State) (a b c : Word) : (s.setR a b c).errCause = s.errCause := rfl
@[simp] theorem State.setR_errDetail (s : State) (a b c : Word) : (s.setR a b c).errDetail = s.errDetail := rfl
@[simp] theorem State.setR_errPos (s : State) (a b c : Word) : (s.setR a b c).errPos = s.errPos := rfl
@[simp] theorem State.setR_inLen (s : State) (a b c : Word) : (s.setR a b c).inLen = s.inLen := rfl
@[simp] theorem State.setR_outLen (s : State) (a b c : Word) : (s.setR a b c).outLen = s.outLen := rfl
@[simp] theorem State.setR_hdrPlatform (s : State) (a b c : Word) : (s.setR a b c).hdrPlatform = s.hdrPlatform := rfl
@[simp] theorem State.setR_hdrVersion (s : State) (a b c : Word) : (s.setR a b c).hdrVersion = s.hdrVersion := rfl
@[simp] theorem State.setR_hdrFlags (s : State) (a b c : Word) : (s.setR a b c).hdrFlags = s.hdrFlags := rfl
@[simp] theorem State.setR_hdrFileSize (s : State) (a b c : Word) : (s.setR a b c).hdrFileSize = s.hdrFileSize := rfl
@[simp] theorem State.setR_hdrDecSize (s : State) (a b c : Word) : (s.setR a b c).hdrDecSize = s.hdrDecSize := rfl
@[simp] theorem State.setR_e8FileSize (s : State) (a b c : Word) : (s.setR a b c).e8FileSize = s.e8FileSize := rfl
@[simp] theorem State.setR_sched (s : State) (a b c : Word) : (s.setR a b c).sched = s.sched := rfl
@[simp] theorem State.setR_resp (s : State) (a b c : Word) : (s.setR a b c).resp = s.resp := rfl
@[simp] theorem State.setR_busErr (s : State) (a b c : Word) : (s.setR a b c).busErr = s.busErr := rfl
@[simp] theorem State.setR_draws (s : State) (a b c : Word) : (s.setR a b c).draws = s.draws := rfl

/-! ### `State.respond` -/

@[simp] theorem State.respond_cfg (s : State) (r : Resp) : (s.respond r).cfg = s.cfg := rfl
@[simp] theorem State.respond_sess (s : State) (r : Resp) : (s.respond r).sess = s.sess := rfl
@[simp] theorem State.respond_pend (s : State) (r : Resp) : (s.respond r).pend = s.pend := rfl
@[simp] theorem State.respond_inp (s : State) (r : Resp) : (s.respond r).inp = s.inp := rfl
@[simp] theorem State.respond_out (s : State) (r : Resp) : (s.respond r).out = s.out := rfl
@[simp] theorem State.respond_irqEn (s : State) (r : Resp) : (s.respond r).irqEn = s.irqEn := rfl
@[simp] theorem State.respond_busy (s : State) (r : Resp) : (s.respond r).busy = s.busy := rfl
@[simp] theorem State.respond_done (s : State) (r : Resp) : (s.respond r).done = s.done := rfl
@[simp] theorem State.respond_failed (s : State) (r : Resp) : (s.respond r).failed = s.failed := rfl
@[simp] theorem State.respond_e8Present (s : State) (r : Resp) : (s.respond r).e8Present = s.e8Present := rfl
@[simp] theorem State.respond_compressed (s : State) (r : Resp) : (s.respond r).compressed = s.compressed := rfl
@[simp] theorem State.respond_cmdIgnored (s : State) (r : Resp) : (s.respond r).cmdIgnored = s.cmdIgnored := rfl
@[simp] theorem State.respond_errCause (s : State) (r : Resp) : (s.respond r).errCause = s.errCause := rfl
@[simp] theorem State.respond_errDetail (s : State) (r : Resp) : (s.respond r).errDetail = s.errDetail := rfl
@[simp] theorem State.respond_errPos (s : State) (r : Resp) : (s.respond r).errPos = s.errPos := rfl
@[simp] theorem State.respond_inLen (s : State) (r : Resp) : (s.respond r).inLen = s.inLen := rfl
@[simp] theorem State.respond_outLen (s : State) (r : Resp) : (s.respond r).outLen = s.outLen := rfl
@[simp] theorem State.respond_hdrPlatform (s : State) (r : Resp) : (s.respond r).hdrPlatform = s.hdrPlatform := rfl
@[simp] theorem State.respond_hdrVersion (s : State) (r : Resp) : (s.respond r).hdrVersion = s.hdrVersion := rfl
@[simp] theorem State.respond_hdrFlags (s : State) (r : Resp) : (s.respond r).hdrFlags = s.hdrFlags := rfl
@[simp] theorem State.respond_hdrFileSize (s : State) (r : Resp) : (s.respond r).hdrFileSize = s.hdrFileSize := rfl
@[simp] theorem State.respond_hdrDecSize (s : State) (r : Resp) : (s.respond r).hdrDecSize = s.hdrDecSize := rfl
@[simp] theorem State.respond_e8FileSize (s : State) (r : Resp) : (s.respond r).e8FileSize = s.e8FileSize := rfl
@[simp] theorem State.respond_sched (s : State) (r : Resp) : (s.respond r).sched = s.sched := rfl
@[simp] theorem State.respond_resp (s : State) (r : Resp) : (s.respond r).resp = r := rfl
@[simp] theorem State.respond_busErr (s : State) (r : Resp) : (s.respond r).busErr = s.busErr := rfl
@[simp] theorem State.respond_draws (s : State) (r : Resp) : (s.respond r).draws = s.draws := rfl

/-! ### `State.countDraw` -/

@[simp] theorem State.countDraw_cfg (s : State) : s.countDraw.cfg = s.cfg := rfl
@[simp] theorem State.countDraw_sess (s : State) : s.countDraw.sess = s.sess := rfl
@[simp] theorem State.countDraw_pend (s : State) : s.countDraw.pend = s.pend := rfl
@[simp] theorem State.countDraw_inp (s : State) : s.countDraw.inp = s.inp := rfl
@[simp] theorem State.countDraw_out (s : State) : s.countDraw.out = s.out := rfl
@[simp] theorem State.countDraw_irqEn (s : State) : s.countDraw.irqEn = s.irqEn := rfl
@[simp] theorem State.countDraw_busy (s : State) : s.countDraw.busy = s.busy := rfl
@[simp] theorem State.countDraw_done (s : State) : s.countDraw.done = s.done := rfl
@[simp] theorem State.countDraw_failed (s : State) : s.countDraw.failed = s.failed := rfl
@[simp] theorem State.countDraw_e8Present (s : State) : s.countDraw.e8Present = s.e8Present := rfl
@[simp] theorem State.countDraw_compressed (s : State) : s.countDraw.compressed = s.compressed := rfl
@[simp] theorem State.countDraw_cmdIgnored (s : State) : s.countDraw.cmdIgnored = s.cmdIgnored := rfl
@[simp] theorem State.countDraw_errCause (s : State) : s.countDraw.errCause = s.errCause := rfl
@[simp] theorem State.countDraw_errDetail (s : State) : s.countDraw.errDetail = s.errDetail := rfl
@[simp] theorem State.countDraw_errPos (s : State) : s.countDraw.errPos = s.errPos := rfl
@[simp] theorem State.countDraw_inLen (s : State) : s.countDraw.inLen = s.inLen := rfl
@[simp] theorem State.countDraw_outLen (s : State) : s.countDraw.outLen = s.outLen := rfl
@[simp] theorem State.countDraw_hdrPlatform (s : State) : s.countDraw.hdrPlatform = s.hdrPlatform := rfl
@[simp] theorem State.countDraw_hdrVersion (s : State) : s.countDraw.hdrVersion = s.hdrVersion := rfl
@[simp] theorem State.countDraw_hdrFlags (s : State) : s.countDraw.hdrFlags = s.hdrFlags := rfl
@[simp] theorem State.countDraw_hdrFileSize (s : State) : s.countDraw.hdrFileSize = s.hdrFileSize := rfl
@[simp] theorem State.countDraw_hdrDecSize (s : State) : s.countDraw.hdrDecSize = s.hdrDecSize := rfl
@[simp] theorem State.countDraw_e8FileSize (s : State) : s.countDraw.e8FileSize = s.e8FileSize := rfl
@[simp] theorem State.countDraw_sched (s : State) : s.countDraw.sched = s.sched := rfl
@[simp] theorem State.countDraw_resp (s : State) : s.countDraw.resp = s.resp := rfl
@[simp] theorem State.countDraw_busErr (s : State) : s.countDraw.busErr = s.busErr := rfl
@[simp] theorem State.countDraw_draws (s : State) : s.countDraw.draws = s.draws + 1 := rfl

/-! ### `State.setOut` -/

@[simp] theorem State.setOut_cfg (s : State) (a : Nat) (b : Byte) : (s.setOut a b).cfg = s.cfg := rfl
@[simp] theorem State.setOut_sess (s : State) (a : Nat) (b : Byte) : (s.setOut a b).sess = s.sess := rfl
@[simp] theorem State.setOut_pend (s : State) (a : Nat) (b : Byte) : (s.setOut a b).pend = s.pend := rfl
@[simp] theorem State.setOut_inp (s : State) (a : Nat) (b : Byte) : (s.setOut a b).inp = s.inp := rfl
@[simp] theorem State.setOut_out (s : State) (a : Nat) (b : Byte) : (s.setOut a b).out = s.out.set a b := rfl
@[simp] theorem State.setOut_irqEn (s : State) (a : Nat) (b : Byte) : (s.setOut a b).irqEn = s.irqEn := rfl
@[simp] theorem State.setOut_busy (s : State) (a : Nat) (b : Byte) : (s.setOut a b).busy = s.busy := rfl
@[simp] theorem State.setOut_done (s : State) (a : Nat) (b : Byte) : (s.setOut a b).done = s.done := rfl
@[simp] theorem State.setOut_failed (s : State) (a : Nat) (b : Byte) : (s.setOut a b).failed = s.failed := rfl
@[simp] theorem State.setOut_e8Present (s : State) (a : Nat) (b : Byte) : (s.setOut a b).e8Present = s.e8Present := rfl
@[simp] theorem State.setOut_compressed (s : State) (a : Nat) (b : Byte) : (s.setOut a b).compressed = s.compressed := rfl
@[simp] theorem State.setOut_cmdIgnored (s : State) (a : Nat) (b : Byte) : (s.setOut a b).cmdIgnored = s.cmdIgnored := rfl
@[simp] theorem State.setOut_errCause (s : State) (a : Nat) (b : Byte) : (s.setOut a b).errCause = s.errCause := rfl
@[simp] theorem State.setOut_errDetail (s : State) (a : Nat) (b : Byte) : (s.setOut a b).errDetail = s.errDetail := rfl
@[simp] theorem State.setOut_errPos (s : State) (a : Nat) (b : Byte) : (s.setOut a b).errPos = s.errPos := rfl
@[simp] theorem State.setOut_inLen (s : State) (a : Nat) (b : Byte) : (s.setOut a b).inLen = s.inLen := rfl
@[simp] theorem State.setOut_outLen (s : State) (a : Nat) (b : Byte) : (s.setOut a b).outLen = s.outLen := rfl
@[simp] theorem State.setOut_hdrPlatform (s : State) (a : Nat) (b : Byte) : (s.setOut a b).hdrPlatform = s.hdrPlatform := rfl
@[simp] theorem State.setOut_hdrVersion (s : State) (a : Nat) (b : Byte) : (s.setOut a b).hdrVersion = s.hdrVersion := rfl
@[simp] theorem State.setOut_hdrFlags (s : State) (a : Nat) (b : Byte) : (s.setOut a b).hdrFlags = s.hdrFlags := rfl
@[simp] theorem State.setOut_hdrFileSize (s : State) (a : Nat) (b : Byte) : (s.setOut a b).hdrFileSize = s.hdrFileSize := rfl
@[simp] theorem State.setOut_hdrDecSize (s : State) (a : Nat) (b : Byte) : (s.setOut a b).hdrDecSize = s.hdrDecSize := rfl
@[simp] theorem State.setOut_e8FileSize (s : State) (a : Nat) (b : Byte) : (s.setOut a b).e8FileSize = s.e8FileSize := rfl
@[simp] theorem State.setOut_sched (s : State) (a : Nat) (b : Byte) : (s.setOut a b).sched = s.sched := rfl
@[simp] theorem State.setOut_resp (s : State) (a : Nat) (b : Byte) : (s.setOut a b).resp = s.resp := rfl
@[simp] theorem State.setOut_busErr (s : State) (a : Nat) (b : Byte) : (s.setOut a b).busErr = s.busErr := rfl
@[simp] theorem State.setOut_draws (s : State) (a : Nat) (b : Byte) : (s.setOut a b).draws = s.draws := rfl

/-! ### `commit` -/

@[simp] theorem commit_cfg (s : State) : (commit s).cfg = s.cfg := rfl
@[simp] theorem commit_sess (s : State) : (commit s).sess = s.sess := rfl
@[simp] theorem commit_pend (s : State) : (commit s).pend = none := rfl
@[simp] theorem commit_inp (s : State) : (commit s).inp = s.inp := rfl
@[simp] theorem commit_out (s : State) : (commit s).out = s.out := rfl
@[simp] theorem commit_irqEn (s : State) : (commit s).irqEn = s.irqEn := rfl
@[simp] theorem commit_busy (s : State) : (commit s).busy = s.busy := rfl
@[simp] theorem commit_done (s : State) : (commit s).done = s.done := rfl
@[simp] theorem commit_failed (s : State) : (commit s).failed = s.failed := rfl
@[simp] theorem commit_e8Present (s : State) : (commit s).e8Present = s.e8Present := rfl
@[simp] theorem commit_compressed (s : State) : (commit s).compressed = s.compressed := rfl
@[simp] theorem commit_cmdIgnored (s : State) : (commit s).cmdIgnored = s.cmdIgnored := rfl
@[simp] theorem commit_errCause (s : State) : (commit s).errCause = s.errCause := rfl
@[simp] theorem commit_errDetail (s : State) : (commit s).errDetail = s.errDetail := rfl
@[simp] theorem commit_errPos (s : State) : (commit s).errPos = s.errPos := rfl
@[simp] theorem commit_inLen (s : State) : (commit s).inLen = s.inLen := rfl
@[simp] theorem commit_outLen (s : State) : (commit s).outLen = s.outLen := rfl
@[simp] theorem commit_hdrPlatform (s : State) : (commit s).hdrPlatform = s.hdrPlatform := rfl
@[simp] theorem commit_hdrVersion (s : State) : (commit s).hdrVersion = s.hdrVersion := rfl
@[simp] theorem commit_hdrFlags (s : State) : (commit s).hdrFlags = s.hdrFlags := rfl
@[simp] theorem commit_hdrFileSize (s : State) : (commit s).hdrFileSize = s.hdrFileSize := rfl
@[simp] theorem commit_hdrDecSize (s : State) : (commit s).hdrDecSize = s.hdrDecSize := rfl
@[simp] theorem commit_e8FileSize (s : State) : (commit s).e8FileSize = s.e8FileSize := rfl
@[simp] theorem commit_sched (s : State) : (commit s).sched = s.sched := rfl
@[simp] theorem commit_resp (s : State) : (commit s).resp = s.resp := rfl
@[simp] theorem commit_busErr (s : State) : (commit s).busErr = s.busErr := rfl
@[simp] theorem commit_draws (s : State) : (commit s).draws = s.draws := rfl

/-! ### `await` -/

@[simp] theorem await_cfg (c : Ctx) (s : State) : (await c s).cfg = s.cfg := rfl
@[simp] theorem await_sess (c : Ctx) (s : State) : (await c s).sess = s.sess := rfl
@[simp] theorem await_pend (c : Ctx) (s : State) : (await c s).pend = some ⟨s.seen, c⟩ := rfl
@[simp] theorem await_inp (c : Ctx) (s : State) : (await c s).inp = s.inp := rfl
@[simp] theorem await_out (c : Ctx) (s : State) : (await c s).out = s.out := rfl
@[simp] theorem await_irqEn (c : Ctx) (s : State) : (await c s).irqEn = s.irqEn := rfl
@[simp] theorem await_busy (c : Ctx) (s : State) : (await c s).busy = s.busy := rfl
@[simp] theorem await_done (c : Ctx) (s : State) : (await c s).done = s.done := rfl
@[simp] theorem await_failed (c : Ctx) (s : State) : (await c s).failed = s.failed := rfl
@[simp] theorem await_e8Present (c : Ctx) (s : State) : (await c s).e8Present = s.e8Present := rfl
@[simp] theorem await_compressed (c : Ctx) (s : State) : (await c s).compressed = s.compressed := rfl
@[simp] theorem await_cmdIgnored (c : Ctx) (s : State) : (await c s).cmdIgnored = s.cmdIgnored := rfl
@[simp] theorem await_errCause (c : Ctx) (s : State) : (await c s).errCause = s.errCause := rfl
@[simp] theorem await_errDetail (c : Ctx) (s : State) : (await c s).errDetail = s.errDetail := rfl
@[simp] theorem await_errPos (c : Ctx) (s : State) : (await c s).errPos = s.errPos := rfl
@[simp] theorem await_inLen (c : Ctx) (s : State) : (await c s).inLen = s.inLen := rfl
@[simp] theorem await_outLen (c : Ctx) (s : State) : (await c s).outLen = s.outLen := rfl
@[simp] theorem await_hdrPlatform (c : Ctx) (s : State) : (await c s).hdrPlatform = s.hdrPlatform := rfl
@[simp] theorem await_hdrVersion (c : Ctx) (s : State) : (await c s).hdrVersion = s.hdrVersion := rfl
@[simp] theorem await_hdrFlags (c : Ctx) (s : State) : (await c s).hdrFlags = s.hdrFlags := rfl
@[simp] theorem await_hdrFileSize (c : Ctx) (s : State) : (await c s).hdrFileSize = s.hdrFileSize := rfl
@[simp] theorem await_hdrDecSize (c : Ctx) (s : State) : (await c s).hdrDecSize = s.hdrDecSize := rfl
@[simp] theorem await_e8FileSize (c : Ctx) (s : State) : (await c s).e8FileSize = s.e8FileSize := rfl
@[simp] theorem await_sched (c : Ctx) (s : State) : (await c s).sched = s.sched := rfl
@[simp] theorem await_resp (c : Ctx) (s : State) : (await c s).resp = s.resp := rfl
@[simp] theorem await_busErr (c : Ctx) (s : State) : (await c s).busErr = s.busErr := rfl
@[simp] theorem await_draws (c : Ctx) (s : State) : (await c s).draws = s.draws := rfl

/-! ### `reinit` -/

@[simp] theorem reinit_cfg (s : State) : (reinit s).cfg = s.cfg := rfl
@[simp] theorem reinit_sess (s : State) :
    (reinit s).sess = { s.sess with
      rdC := if s.cfg.oddPad then s.sess.rdC + s.sess.rdC % 2 else s.sess.rdC
      rdQ := [] } := rfl
@[simp] theorem reinit_pend (s : State) : (reinit s).pend = s.pend := rfl
@[simp] theorem reinit_inp (s : State) : (reinit s).inp = s.inp := rfl
@[simp] theorem reinit_out (s : State) : (reinit s).out = s.out := rfl
@[simp] theorem reinit_irqEn (s : State) : (reinit s).irqEn = s.irqEn := rfl
@[simp] theorem reinit_busy (s : State) : (reinit s).busy = s.busy := rfl
@[simp] theorem reinit_done (s : State) : (reinit s).done = s.done := rfl
@[simp] theorem reinit_failed (s : State) : (reinit s).failed = s.failed := rfl
@[simp] theorem reinit_e8Present (s : State) : (reinit s).e8Present = s.e8Present := rfl
@[simp] theorem reinit_compressed (s : State) : (reinit s).compressed = s.compressed := rfl
@[simp] theorem reinit_cmdIgnored (s : State) : (reinit s).cmdIgnored = s.cmdIgnored := rfl
@[simp] theorem reinit_errCause (s : State) : (reinit s).errCause = s.errCause := rfl
@[simp] theorem reinit_errDetail (s : State) : (reinit s).errDetail = s.errDetail := rfl
@[simp] theorem reinit_errPos (s : State) : (reinit s).errPos = s.errPos := rfl
@[simp] theorem reinit_inLen (s : State) : (reinit s).inLen = s.inLen := rfl
@[simp] theorem reinit_outLen (s : State) : (reinit s).outLen = s.outLen := rfl
@[simp] theorem reinit_hdrPlatform (s : State) : (reinit s).hdrPlatform = s.hdrPlatform := rfl
@[simp] theorem reinit_hdrVersion (s : State) : (reinit s).hdrVersion = s.hdrVersion := rfl
@[simp] theorem reinit_hdrFlags (s : State) : (reinit s).hdrFlags = s.hdrFlags := rfl
@[simp] theorem reinit_hdrFileSize (s : State) : (reinit s).hdrFileSize = s.hdrFileSize := rfl
@[simp] theorem reinit_hdrDecSize (s : State) : (reinit s).hdrDecSize = s.hdrDecSize := rfl
@[simp] theorem reinit_e8FileSize (s : State) : (reinit s).e8FileSize = s.e8FileSize := rfl
@[simp] theorem reinit_sched (s : State) : (reinit s).sched = s.sched := rfl
@[simp] theorem reinit_resp (s : State) : (reinit s).resp = s.resp := rfl
@[simp] theorem reinit_busErr (s : State) : (reinit s).busErr = s.busErr := rfl
@[simp] theorem reinit_draws (s : State) : (reinit s).draws = s.draws := rfl

/-! ### `frameEnd` -/

@[simp] theorem frameEnd_cfg (s : State) : (frameEnd s).cfg = s.cfg := rfl
@[simp] theorem frameEnd_sess (s : State) : (frameEnd s).sess = { s.sess with inPos := s.sess.frameBase + s.sess.frameLen, ds := .frameHdr } := rfl
@[simp] theorem frameEnd_pend (s : State) : (frameEnd s).pend = s.pend := rfl
@[simp] theorem frameEnd_inp (s : State) : (frameEnd s).inp = s.inp := rfl
@[simp] theorem frameEnd_out (s : State) : (frameEnd s).out = s.out := rfl
@[simp] theorem frameEnd_irqEn (s : State) : (frameEnd s).irqEn = s.irqEn := rfl
@[simp] theorem frameEnd_busy (s : State) : (frameEnd s).busy = s.busy := rfl
@[simp] theorem frameEnd_done (s : State) : (frameEnd s).done = s.done := rfl
@[simp] theorem frameEnd_failed (s : State) : (frameEnd s).failed = s.failed := rfl
@[simp] theorem frameEnd_e8Present (s : State) : (frameEnd s).e8Present = s.e8Present := rfl
@[simp] theorem frameEnd_compressed (s : State) : (frameEnd s).compressed = s.compressed := rfl
@[simp] theorem frameEnd_cmdIgnored (s : State) : (frameEnd s).cmdIgnored = s.cmdIgnored := rfl
@[simp] theorem frameEnd_errCause (s : State) : (frameEnd s).errCause = s.errCause := rfl
@[simp] theorem frameEnd_errDetail (s : State) : (frameEnd s).errDetail = s.errDetail := rfl
@[simp] theorem frameEnd_errPos (s : State) : (frameEnd s).errPos = s.errPos := rfl
@[simp] theorem frameEnd_inLen (s : State) : (frameEnd s).inLen = s.inLen := rfl
@[simp] theorem frameEnd_outLen (s : State) : (frameEnd s).outLen = s.outLen := rfl
@[simp] theorem frameEnd_hdrPlatform (s : State) : (frameEnd s).hdrPlatform = s.hdrPlatform := rfl
@[simp] theorem frameEnd_hdrVersion (s : State) : (frameEnd s).hdrVersion = s.hdrVersion := rfl
@[simp] theorem frameEnd_hdrFlags (s : State) : (frameEnd s).hdrFlags = s.hdrFlags := rfl
@[simp] theorem frameEnd_hdrFileSize (s : State) : (frameEnd s).hdrFileSize = s.hdrFileSize := rfl
@[simp] theorem frameEnd_hdrDecSize (s : State) : (frameEnd s).hdrDecSize = s.hdrDecSize := rfl
@[simp] theorem frameEnd_e8FileSize (s : State) : (frameEnd s).e8FileSize = s.e8FileSize := rfl
@[simp] theorem frameEnd_sched (s : State) : (frameEnd s).sched = s.sched := rfl
@[simp] theorem frameEnd_resp (s : State) : (frameEnd s).resp = s.resp := rfl
@[simp] theorem frameEnd_busErr (s : State) : (frameEnd s).busErr = s.busErr := rfl
@[simp] theorem frameEnd_draws (s : State) : (frameEnd s).draws = s.draws := rfl

/-! ### `readerInit` -/

@[simp] theorem readerInit_cfg (base len : Nat) (s : State) : (readerInit base len s).cfg = s.cfg := rfl
@[simp] theorem readerInit_sess (base len : Nat) (s : State) : (readerInit base len s).sess = { s.sess with frameBase := base, frameLen := len, rdC := 0, rdQ := [] } := rfl
@[simp] theorem readerInit_pend (base len : Nat) (s : State) : (readerInit base len s).pend = s.pend := rfl
@[simp] theorem readerInit_inp (base len : Nat) (s : State) : (readerInit base len s).inp = s.inp := rfl
@[simp] theorem readerInit_out (base len : Nat) (s : State) : (readerInit base len s).out = s.out := rfl
@[simp] theorem readerInit_irqEn (base len : Nat) (s : State) : (readerInit base len s).irqEn = s.irqEn := rfl
@[simp] theorem readerInit_busy (base len : Nat) (s : State) : (readerInit base len s).busy = s.busy := rfl
@[simp] theorem readerInit_done (base len : Nat) (s : State) : (readerInit base len s).done = s.done := rfl
@[simp] theorem readerInit_failed (base len : Nat) (s : State) : (readerInit base len s).failed = s.failed := rfl
@[simp] theorem readerInit_e8Present (base len : Nat) (s : State) : (readerInit base len s).e8Present = s.e8Present := rfl
@[simp] theorem readerInit_compressed (base len : Nat) (s : State) : (readerInit base len s).compressed = s.compressed := rfl
@[simp] theorem readerInit_cmdIgnored (base len : Nat) (s : State) : (readerInit base len s).cmdIgnored = s.cmdIgnored := rfl
@[simp] theorem readerInit_errCause (base len : Nat) (s : State) : (readerInit base len s).errCause = s.errCause := rfl
@[simp] theorem readerInit_errDetail (base len : Nat) (s : State) : (readerInit base len s).errDetail = s.errDetail := rfl
@[simp] theorem readerInit_errPos (base len : Nat) (s : State) : (readerInit base len s).errPos = s.errPos := rfl
@[simp] theorem readerInit_inLen (base len : Nat) (s : State) : (readerInit base len s).inLen = s.inLen := rfl
@[simp] theorem readerInit_outLen (base len : Nat) (s : State) : (readerInit base len s).outLen = s.outLen := rfl
@[simp] theorem readerInit_hdrPlatform (base len : Nat) (s : State) : (readerInit base len s).hdrPlatform = s.hdrPlatform := rfl
@[simp] theorem readerInit_hdrVersion (base len : Nat) (s : State) : (readerInit base len s).hdrVersion = s.hdrVersion := rfl
@[simp] theorem readerInit_hdrFlags (base len : Nat) (s : State) : (readerInit base len s).hdrFlags = s.hdrFlags := rfl
@[simp] theorem readerInit_hdrFileSize (base len : Nat) (s : State) : (readerInit base len s).hdrFileSize = s.hdrFileSize := rfl
@[simp] theorem readerInit_hdrDecSize (base len : Nat) (s : State) : (readerInit base len s).hdrDecSize = s.hdrDecSize := rfl
@[simp] theorem readerInit_e8FileSize (base len : Nat) (s : State) : (readerInit base len s).e8FileSize = s.e8FileSize := rfl
@[simp] theorem readerInit_sched (base len : Nat) (s : State) : (readerInit base len s).sched = s.sched := rfl
@[simp] theorem readerInit_resp (base len : Nat) (s : State) : (readerInit base len s).resp = s.resp := rfl
@[simp] theorem readerInit_busErr (base len : Nat) (s : State) : (readerInit base len s).busErr = s.busErr := rfl
@[simp] theorem readerInit_draws (base len : Nat) (s : State) : (readerInit base len s).draws = s.draws := rfl

/-! ### `emit` -/

@[simp] theorem emit_cfg (b : Byte) (s : State) : (emit b s).cfg = s.cfg := rfl
@[simp] theorem emit_sess (b : Byte) (s : State) : (emit b s).sess = { s.sess with
      win := s.sess.win.set s.sess.wpos b
      wpos := (s.sess.wpos + 1) % s.cfg.windowSize
      written := min (s.sess.written + 1) s.cfg.windowSize
      produced := s.sess.produced + 1 } := rfl
@[simp] theorem emit_pend (b : Byte) (s : State) : (emit b s).pend = s.pend := rfl
@[simp] theorem emit_inp (b : Byte) (s : State) : (emit b s).inp = s.inp := rfl
@[simp] theorem emit_out (b : Byte) (s : State) : (emit b s).out = s.out.set s.sess.produced b := rfl
@[simp] theorem emit_irqEn (b : Byte) (s : State) : (emit b s).irqEn = s.irqEn := rfl
@[simp] theorem emit_busy (b : Byte) (s : State) : (emit b s).busy = s.busy := rfl
@[simp] theorem emit_done (b : Byte) (s : State) : (emit b s).done = s.done := rfl
@[simp] theorem emit_failed (b : Byte) (s : State) : (emit b s).failed = s.failed := rfl
@[simp] theorem emit_e8Present (b : Byte) (s : State) : (emit b s).e8Present = s.e8Present := rfl
@[simp] theorem emit_compressed (b : Byte) (s : State) : (emit b s).compressed = s.compressed := rfl
@[simp] theorem emit_cmdIgnored (b : Byte) (s : State) : (emit b s).cmdIgnored = s.cmdIgnored := rfl
@[simp] theorem emit_errCause (b : Byte) (s : State) : (emit b s).errCause = s.errCause := rfl
@[simp] theorem emit_errDetail (b : Byte) (s : State) : (emit b s).errDetail = s.errDetail := rfl
@[simp] theorem emit_errPos (b : Byte) (s : State) : (emit b s).errPos = s.errPos := rfl
@[simp] theorem emit_inLen (b : Byte) (s : State) : (emit b s).inLen = s.inLen := rfl
@[simp] theorem emit_outLen (b : Byte) (s : State) : (emit b s).outLen = s.outLen := rfl
@[simp] theorem emit_hdrPlatform (b : Byte) (s : State) : (emit b s).hdrPlatform = s.hdrPlatform := rfl
@[simp] theorem emit_hdrVersion (b : Byte) (s : State) : (emit b s).hdrVersion = s.hdrVersion := rfl
@[simp] theorem emit_hdrFlags (b : Byte) (s : State) : (emit b s).hdrFlags = s.hdrFlags := rfl
@[simp] theorem emit_hdrFileSize (b : Byte) (s : State) : (emit b s).hdrFileSize = s.hdrFileSize := rfl
@[simp] theorem emit_hdrDecSize (b : Byte) (s : State) : (emit b s).hdrDecSize = s.hdrDecSize := rfl
@[simp] theorem emit_e8FileSize (b : Byte) (s : State) : (emit b s).e8FileSize = s.e8FileSize := rfl
@[simp] theorem emit_sched (b : Byte) (s : State) : (emit b s).sched = s.sched := rfl
@[simp] theorem emit_resp (b : Byte) (s : State) : (emit b s).resp = s.resp := rfl
@[simp] theorem emit_busErr (b : Byte) (s : State) : (emit b s).busErr = s.busErr := rfl
@[simp] theorem emit_draws (b : Byte) (s : State) : (emit b s).draws = s.draws := rfl

/-! ### `busErrorResp` -/

@[simp] theorem busErrorResp_cfg (s : State) : (busErrorResp s).cfg = s.cfg := rfl
@[simp] theorem busErrorResp_sess (s : State) : (busErrorResp s).sess = s.sess := rfl
@[simp] theorem busErrorResp_pend (s : State) : (busErrorResp s).pend = s.pend := rfl
@[simp] theorem busErrorResp_inp (s : State) : (busErrorResp s).inp = s.inp := rfl
@[simp] theorem busErrorResp_out (s : State) : (busErrorResp s).out = s.out := rfl
@[simp] theorem busErrorResp_irqEn (s : State) : (busErrorResp s).irqEn = s.irqEn := rfl
@[simp] theorem busErrorResp_busy (s : State) : (busErrorResp s).busy = s.busy := rfl
@[simp] theorem busErrorResp_done (s : State) : (busErrorResp s).done = s.done := rfl
@[simp] theorem busErrorResp_failed (s : State) : (busErrorResp s).failed = s.failed := rfl
@[simp] theorem busErrorResp_e8Present (s : State) : (busErrorResp s).e8Present = s.e8Present := rfl
@[simp] theorem busErrorResp_compressed (s : State) : (busErrorResp s).compressed = s.compressed := rfl
@[simp] theorem busErrorResp_cmdIgnored (s : State) : (busErrorResp s).cmdIgnored = s.cmdIgnored := rfl
@[simp] theorem busErrorResp_errCause (s : State) : (busErrorResp s).errCause = s.errCause := rfl
@[simp] theorem busErrorResp_errDetail (s : State) : (busErrorResp s).errDetail = s.errDetail := rfl
@[simp] theorem busErrorResp_errPos (s : State) : (busErrorResp s).errPos = s.errPos := rfl
@[simp] theorem busErrorResp_inLen (s : State) : (busErrorResp s).inLen = s.inLen := rfl
@[simp] theorem busErrorResp_outLen (s : State) : (busErrorResp s).outLen = s.outLen := rfl
@[simp] theorem busErrorResp_hdrPlatform (s : State) : (busErrorResp s).hdrPlatform = s.hdrPlatform := rfl
@[simp] theorem busErrorResp_hdrVersion (s : State) : (busErrorResp s).hdrVersion = s.hdrVersion := rfl
@[simp] theorem busErrorResp_hdrFlags (s : State) : (busErrorResp s).hdrFlags = s.hdrFlags := rfl
@[simp] theorem busErrorResp_hdrFileSize (s : State) : (busErrorResp s).hdrFileSize = s.hdrFileSize := rfl
@[simp] theorem busErrorResp_hdrDecSize (s : State) : (busErrorResp s).hdrDecSize = s.hdrDecSize := rfl
@[simp] theorem busErrorResp_e8FileSize (s : State) : (busErrorResp s).e8FileSize = s.e8FileSize := rfl
@[simp] theorem busErrorResp_sched (s : State) : (busErrorResp s).sched = s.sched := rfl
@[simp] theorem busErrorResp_resp (s : State) : (busErrorResp s).resp = .error := rfl
@[simp] theorem busErrorResp_busErr (s : State) : (busErrorResp s).busErr = true := rfl
@[simp] theorem busErrorResp_draws (s : State) : (busErrorResp s).draws = s.draws := rfl

/-! ### The committed session -/

@[simp] theorem seen_commit (s : State) : (commit s).seen = s.sess := rfl
@[simp] theorem seen_await (c : Ctx) (s : State) : (await c s).seen = s.seen := rfl

theorem seen_of_none {s : State} (h : s.pend = none) : s.seen = s.sess := by
  unfold State.seen
  rw [h]

theorem seen_of_some {s : State} {p : Pending} (h : s.pend = some p) : s.seen = p.base := by
  unfold State.seen
  rw [h]

/-- The committed session depends on the live session and the record of the step in progress alone. -/
theorem seen_congr {s t : State} (hp : t.pend = s.pend) (hs : t.sess = s.sess) : t.seen = s.seen := by
  unfold State.seen
  rw [hp, hs]

/-- Inside a step, the committed session does not see the live one. -/
theorem seen_congr_some {s t : State} {p : Pending} (hs : s.pend = some p) (ht : t.pend = s.pend) :
    t.seen = s.seen := by
  rw [seen_of_some hs, seen_of_some (ht.trans hs)]

/-! ### Opening a step -/

theorem begin_of_none {s : State} (h : s.pend = none) : begin s = s.setPend (some ⟨s.sess, .started⟩) := by
  unfold begin
  rw [h]

theorem begin_of_some {s : State} {p : Pending} (h : s.pend = some p) : begin s = s := by
  unfold begin
  rw [h]

/-- Opening a step changes the record of the step at most. -/
theorem begin_eq (s : State) : begin s = { s with pend := (begin s).pend } := by
  cases h : s.pend with
  | none => rw [begin_of_none h]; rfl
  | some p => rw [begin_of_some h]

@[simp] theorem begin_cfg (s : State) : (begin s).cfg = s.cfg := by rw [begin_eq]
@[simp] theorem begin_sess (s : State) : (begin s).sess = s.sess := by rw [begin_eq]
@[simp] theorem begin_inp (s : State) : (begin s).inp = s.inp := by rw [begin_eq]
@[simp] theorem begin_out (s : State) : (begin s).out = s.out := by rw [begin_eq]
@[simp] theorem begin_irqEn (s : State) : (begin s).irqEn = s.irqEn := by rw [begin_eq]
@[simp] theorem begin_busy (s : State) : (begin s).busy = s.busy := by rw [begin_eq]
@[simp] theorem begin_done (s : State) : (begin s).done = s.done := by rw [begin_eq]
@[simp] theorem begin_failed (s : State) : (begin s).failed = s.failed := by rw [begin_eq]
@[simp] theorem begin_e8Present (s : State) : (begin s).e8Present = s.e8Present := by rw [begin_eq]
@[simp] theorem begin_compressed (s : State) : (begin s).compressed = s.compressed := by rw [begin_eq]
@[simp] theorem begin_cmdIgnored (s : State) : (begin s).cmdIgnored = s.cmdIgnored := by rw [begin_eq]
@[simp] theorem begin_errCause (s : State) : (begin s).errCause = s.errCause := by rw [begin_eq]
@[simp] theorem begin_errDetail (s : State) : (begin s).errDetail = s.errDetail := by rw [begin_eq]
@[simp] theorem begin_errPos (s : State) : (begin s).errPos = s.errPos := by rw [begin_eq]
@[simp] theorem begin_inLen (s : State) : (begin s).inLen = s.inLen := by rw [begin_eq]
@[simp] theorem begin_outLen (s : State) : (begin s).outLen = s.outLen := by rw [begin_eq]
@[simp] theorem begin_hdrPlatform (s : State) : (begin s).hdrPlatform = s.hdrPlatform := by rw [begin_eq]
@[simp] theorem begin_hdrVersion (s : State) : (begin s).hdrVersion = s.hdrVersion := by rw [begin_eq]
@[simp] theorem begin_hdrFlags (s : State) : (begin s).hdrFlags = s.hdrFlags := by rw [begin_eq]
@[simp] theorem begin_hdrFileSize (s : State) : (begin s).hdrFileSize = s.hdrFileSize := by rw [begin_eq]
@[simp] theorem begin_hdrDecSize (s : State) : (begin s).hdrDecSize = s.hdrDecSize := by rw [begin_eq]
@[simp] theorem begin_e8FileSize (s : State) : (begin s).e8FileSize = s.e8FileSize := by rw [begin_eq]
@[simp] theorem begin_sched (s : State) : (begin s).sched = s.sched := by rw [begin_eq]
@[simp] theorem begin_resp (s : State) : (begin s).resp = s.resp := by rw [begin_eq]
@[simp] theorem begin_busErr (s : State) : (begin s).busErr = s.busErr := by rw [begin_eq]
@[simp] theorem begin_draws (s : State) : (begin s).draws = s.draws := by rw [begin_eq]

@[simp] theorem seen_begin (s : State) : (begin s).seen = s.seen := by
  cases h : s.pend with
  | none => rw [begin_of_none h, seen_of_none h]; rfl
  | some p => rw [begin_of_some h]

/-- An open step records the committed session. -/
theorem begin_pend (s : State) : (begin s).pend = some ⟨s.seen, awaited s⟩ := by
  unfold awaited
  cases h : s.pend with
  | none => rw [begin_of_none h, seen_of_none h]; rfl
  | some p => rw [begin_of_some h, seen_of_some h]; exact h

@[simp] theorem awaited_begin (s : State) : awaited (begin s) = awaited s := by
  unfold awaited
  cases h : s.pend with
  | none => rw [begin_of_none h]; rfl
  | some p => rw [begin_of_some h, h]

theorem awaited_congr {s t : State} (h : t.pend = s.pend) : awaited t = awaited s := by
  unfold awaited
  rw [h]

end Sys2Proof.Machine
end

