-- ==== Sys2Proof/Laws/Reader.lean ====
section
/-! SUPPORT. What the bit reader's primitives do (41_bit_reader.md): each changes the reader alone, none is refused, and
each moves the progress measure as R102 says. -/

namespace Sys2Proof.Machine

/-! ## The reader alone changes -/

theorem readerOnly_refl (s : State) : readerOnly s s := rfl

theorem readerOnly_trans {s t u : State} (h : readerOnly s t) (h' : readerOnly t u) : readerOnly s u := by
  unfold readerOnly at *
  rw [h', h]

theorem readerOnly_of_drawsOnly {s t : State} (h : drawsOnly s t) : readerOnly s t := by
  unfold drawsOnly at h
  unfold readerOnly
  rw [h]

theorem readerOnly_setReader (s : State) (c : Nat) (q : List QBit) : readerOnly s (s.setReader c q) := rfl

section
variable {s t : State} (h : readerOnly s t)
include h

theorem readerOnly_cfg : t.cfg = s.cfg := by rw [h]
theorem readerOnly_pend : t.pend = s.pend := by rw [h]
theorem readerOnly_inp : t.inp = s.inp := by rw [h]
theorem readerOnly_out : t.out = s.out := by rw [h]
theorem readerOnly_inLen : t.inLen = s.inLen := by rw [h]
theorem readerOnly_busy : t.busy = s.busy := by rw [h]
theorem readerOnly_sess : t.sess = { s.sess with rdC := t.sess.rdC, rdQ := t.sess.rdQ } := by rw [h]

theorem readerOnly_awaited : awaited t = awaited s := awaited_congr (readerOnly_pend h)

/-- Inside a step, the reader's primitives leave the committed session. -/
theorem readerOnly_seen {p : Pending} (hp : s.pend = some p) : t.seen = s.seen :=
  seen_congr_some hp (readerOnly_pend h)

theorem readerOnly_lens (tr : Tree) : tr.lens t = tr.lens s := by
  rw [h]
  cases tr <;> rfl

theorem readerOnly_arr (p : Pass) : p.arr t = p.arr s := by
  rw [h]
  cases p <;> rfl

end

/-! ## Fetch and ensure -/

@[simp] theorem wordBits_length (w : BitVec 16) (real : Bool) : (wordBits w real).length = 16 := by
  simp [wordBits]

theorem frameByte_drawsOnly (i : Nat) (s : State) : drawsOnly s (frameByte i s).2 := by
  unfold frameByte
  split
  · exact readIn_drawsOnly s _
  · exact drawsOnly_refl s

theorem fetchWord_readerOnly (s : State) : readerOnly s (fetchWord s) :=
  readerOnly_trans (readerOnly_of_drawsOnly (drawsOnly_trans (frameByte_drawsOnly _ s) (frameByte_drawsOnly _ _)))
    (readerOnly_setReader _ _ _)

@[simp] theorem fetchWord_rdC (s : State) : (fetchWord s).sess.rdC = s.sess.rdC + 2 := rfl

@[simp] theorem fetchWord_length (s : State) : (fetchWord s).sess.rdQ.length = s.sess.rdQ.length + 16 := by
  simp [fetchWord]

/-- `fetch` leaves the progress measure (41_bit_reader.md R102). -/
theorem fetchWord_progress (s : State) : readerProgress (fetchWord s).sess = readerProgress s.sess := by
  simp only [readerProgress, fetchWord_rdC, fetchWord_length]
  omega

theorem ensureLoop_readerOnly (fuel n : Nat) (s : State) : readerOnly s (ensureLoop fuel n s) := by
  induction fuel generalizing s with
  | zero => exact readerOnly_refl s
  | succ k ih =>
    unfold ensureLoop
    split
    · exact readerOnly_trans (fetchWord_readerOnly s) (ih _)
    · exact readerOnly_refl s

theorem ensureLoop_progress (fuel n : Nat) (s : State) :
    readerProgress (ensureLoop fuel n s).sess = readerProgress s.sess := by
  induction fuel generalizing s with
  | zero => rfl
  | succ k ih =>
    unfold ensureLoop
    split
    · rw [ih, fetchWord_progress]
    · rfl

theorem ensureLoop_le_length (fuel n : Nat) (s : State) (h : n ≤ s.sess.rdQ.length + 16 * fuel) :
    n ≤ (ensureLoop fuel n s).sess.rdQ.length := by
  induction fuel generalizing s with
  | zero => exact h
  | succ k ih =>
    unfold ensureLoop
    split
    · refine ih _ ?_
      rw [fetchWord_length]
      omega
    · omega

theorem ensureLoop_length_le (fuel n : Nat) (s : State) :
    (ensureLoop fuel n s).sess.rdQ.length ≤ max s.sess.rdQ.length (n + 15) := by
  induction fuel generalizing s with
  | zero => exact Nat.le_max_left ..
  | succ k ih =>
    unfold ensureLoop
    split
    · refine Nat.le_trans (ih _) ?_
      rw [fetchWord_length]
      omega
    · exact Nat.le_max_left ..

theorem ensure_readerOnly (n : Nat) (s : State) : readerOnly s (ensure n s) := ensureLoop_readerOnly n n s

/-- After `ensure(n)` at least `n` bits are buffered (41_bit_reader.md R94). -/
theorem ensure_le_length (n : Nat) (s : State) : n ≤ (ensure n s).sess.rdQ.length :=
  ensureLoop_le_length n n s (by omega)

theorem ensure_length_le (n : Nat) (s : State) :
    (ensure n s).sess.rdQ.length ≤ max s.sess.rdQ.length (n + 15) := ensureLoop_length_le n n s

theorem ensure_progress (n : Nat) (s : State) : readerProgress (ensure n s).sess = readerProgress s.sess :=
  ensureLoop_progress n n s

/-- With enough bits buffered `ensure` does nothing. -/
theorem ensure_of_le {n : Nat} {s : State} (h : n ≤ s.sess.rdQ.length) : ensure n s = s := by
  unfold ensure
  cases n with
  | zero => rfl
  | succ k =>
    unfold ensureLoop
    rw [if_neg (Nat.not_lt.mpr h)]

/-! ## Fields -/

theorem bitsVal_append (q r : List QBit) : bitsVal (q ++ r) = bitsVal q * 2 ^ r.length + bitsVal r := by
  have key : ∀ (l : List QBit) (acc : Nat),
      l.foldl (fun acc x => 2 * acc + (if x.bit then 1 else 0)) acc = acc * 2 ^ l.length + bitsVal l := by
    intro l
    induction l with
    | nil => intro acc; simp [bitsVal]
    | cons x xs ih =>
      intro acc
      simp only [bitsVal, List.foldl_cons, List.length_cons]
      rw [ih, ih (2 * 0 + _), Nat.pow_succ]
      ring
  unfold bitsVal
  rw [List.foldl_append, key]
  rfl

theorem bitsVal_lt (q : List QBit) : bitsVal q < 2 ^ q.length := by
  induction q with
  | nil => simp [bitsVal]
  | cons x xs ih =>
    have h : bitsVal (x :: xs) = bitsVal [x] * 2 ^ xs.length + bitsVal xs := bitsVal_append [x] xs
    have hx : bitsVal [x] ≤ 1 := by
      simp only [bitsVal, List.foldl_cons, List.foldl_nil]
      split <;> omega
    rw [h, List.length_cons, Nat.pow_succ]
    have := Nat.mul_le_mul_right (2 ^ xs.length) hx
    omega

/-- `readbits` as one test on the buffered bits (41_bit_reader.md R94 to R97). -/
theorem readBits_eq (n : Nat) (s : State) :
    readBits n s =
      if n = 0 then .ok 0 s
      else if ((ensure n s).sess.rdQ.take n).all (·.real) then
        .ok (bitsVal ((ensure n s).sess.rdQ.take n))
          ((ensure n s).setReader (ensure n s).sess.rdC ((ensure n s).sess.rdQ.drop n))
      else .raise .bitsExhausted (ensure n s).draws := by
  unfold readBits
  split
  · rfl
  · have h := Nat.not_lt.mpr (ensure_le_length n s)
    simp only [peek, if_neg h, Res.ok_bind, remove]
    split <;> rfl

/-- What a successful `readbits` gives: a value of `n` bits, the reader moved on by `n` bits. -/
theorem readBits_post (n : Nat) (s : State) :
    (readBits n s).post
      (fun v t => readerOnly s t ∧ v < 2 ^ n ∧ readerProgress t.sess = readerProgress s.sess + n
        ∧ t.sess.rdQ.length ≤ max s.sess.rdQ.length 15)
      (· = .bitsExhausted) := by
  rw [readBits_eq]
  split
  · next h =>
    subst h
    refine ⟨readerOnly_refl s, by simp, by simp, Nat.le_max_left ..⟩
  · split
    · refine ⟨readerOnly_trans (ensure_readerOnly n s) (readerOnly_setReader _ _ _), ?_, ?_, ?_⟩
      · refine Nat.lt_of_lt_of_eq (bitsVal_lt _) ?_
        rw [List.length_take, Nat.min_eq_left (ensure_le_length n s)]
      · have hp := ensure_progress n s
        have hl := ensure_le_length n s
        simp only [readerProgress, State.setReader_sess, List.length_drop] at *
        omega
      · have := ensure_length_le n s
        simp only [State.setReader_sess, List.length_drop]
        omega
    · rfl

/-- Consecutive fields: as many values as asked for, each of `n` bits. -/
theorem readFields_post (n k : Nat) (s : State) :
    (readFields n k s).post
      (fun vs t => readerOnly s t ∧ vs.length = k ∧ (∀ v ∈ vs, v < 2 ^ n)
        ∧ readerProgress t.sess = readerProgress s.sess + (n * k : Nat)
        ∧ t.sess.rdQ.length ≤ max s.sess.rdQ.length 15)
      (· = .bitsExhausted) := by
  induction k generalizing s with
  | zero => exact ⟨readerOnly_refl s, rfl, by simp, by simp, Nat.le_max_left ..⟩
  | succ k ih =>
    refine Res.post_bind (readBits_post n s) fun v t ⟨h1, h2, h3, h4⟩ => ?_
    refine Res.post_bind (ih t) fun vs u ⟨h5, h6, h7, h8, h9⟩ => ?_
    refine ⟨readerOnly_trans h1 h5, by simp [h6], ?_, ?_, by omega⟩
    · intro x hx
      rcases List.mem_cons.mp hx with rfl | hx
      · exact h2
      · exact h7 x hx
    · rw [h8, h3, Nat.mul_succ]
      push_cast
      ring

/-- `ensure` of at most 16 bits that are not buffered is one `fetch` (41_bit_reader.md R94). -/
theorem ensure_eq_fetchWord {n : Nat} {s : State} (h : s.sess.rdQ.length < n) (hn : n ≤ 16) :
    ensure n s = fetchWord s := by
  obtain ⟨k, rfl⟩ : ∃ k, n = k + 1 := ⟨n - 1, by omega⟩
  rw [ensure, ensureLoop, if_pos h]
  cases k with
  | zero => rfl
  | succ k => rw [ensureLoop, if_neg (by simp; omega)]

/-! ## Bytes -/

theorem align16_readerOnly (s : State) : readerOnly s (align16 s) :=
  readerOnly_trans (ensure_readerOnly 16 s) (readerOnly_setReader _ _ _)

@[simp] theorem align16_rdQ (s : State) : (align16 s).sess.rdQ = [] := rfl

theorem readByte_post (s : State) :
    (readByte s).post
      (fun b t => readerOnly s t ∧ t.sess.rdC = s.sess.rdC + 1 ∧ t.sess.rdQ = s.sess.rdQ
        ∧ s.sess.rdC < s.sess.frameLen
        ∧ ∀ x, s.inp.get? (s.sess.frameBase + s.sess.rdC) = some x → b = x)
      (· = .bytesExhausted) := by
  unfold readByte
  split
  · rfl
  · have hd := readIn_drawsOnly s (s.sess.frameBase + s.sess.rdC)
    refine ⟨readerOnly_trans (readerOnly_of_drawsOnly hd) (readerOnly_setReader _ _ _), rfl, ?_, by omega, ?_⟩
    · simp only [State.setReader_sess]
      rw [drawsOnly_sess hd]
    · intro x hx
      rw [readIn_some hx]

theorem readWord32_post (s : State) :
    (readWord32 s).post
      (fun _ t => readerOnly s t ∧ t.sess.rdC = s.sess.rdC + 4 ∧ t.sess.rdQ = s.sess.rdQ)
      (· = .bytesExhausted) := by
  unfold readWord32
  refine Res.post_bind (readByte_post s) fun _ _ ⟨h1, c1, q1, _⟩ => ?_
  refine Res.post_bind (readByte_post _) fun _ _ ⟨h2, c2, q2, _⟩ => ?_
  refine Res.post_bind (readByte_post _) fun _ _ ⟨h3, c3, q3, _⟩ => ?_
  refine Res.post_bind (readByte_post _) fun _ _ ⟨h4, c4, q4, _⟩ => ?_
  exact ⟨readerOnly_trans h1 (readerOnly_trans h2 (readerOnly_trans h3 h4)), by omega, by rw [q4, q3, q2, q1]⟩

/-! ## The restart -/

/-- `reinit` leaves an even cursor with UNCOMP_ODD_PAD = 1. -/
theorem reinit_even {s : State} (h : s.cfg.oddPad = true) : (reinit s).sess.rdC % 2 = 0 := by
  simp only [reinit_sess, h, if_true]
  omega

/-- `reinit` leaves an even cursor as it is, and every cursor with UNCOMP_ODD_PAD = 0. -/
theorem reinit_rdC_of_even {s : State} (h : s.cfg.oddPad = true → s.sess.rdC % 2 = 0) :
    (reinit s).sess.rdC = s.sess.rdC := by
  simp only [reinit_sess]
  split
  · next hp => rw [h hp]; rfl
  · rfl

end Sys2Proof.Machine
end

