-- ==== Sys2Proof/Laws/Huffman.lean ====
section
/-! SUPPORT. What the tree operations do (42_huffman.md): the canonical scan, `build` and the symbol decode. -/

namespace Sys2Proof.Machine

/-! ## The scan -/

/-- A scan of one length that runs past every symbol has skipped one interval for each of them. -/
theorem scanSymbols_past {l v : Nat} {xs : List Nat} {i pos pos' : Nat} (hv : pos ≤ v)
    (h : scanSymbols l v xs i pos = .past pos') : pos' = pos + xs.count l * 2 ^ (16 - l) ∧ pos' ≤ v := by
  induction xs generalizing i pos with
  | nil =>
    cases h
    simpa using hv
  | cons x xs ih =>
    unfold scanSymbols at h
    split at h
    · next heq =>
      split at h
      · cases h
      · obtain ⟨h1, h2⟩ := ih (by omega) h
        refine ⟨?_, h2⟩
        rw [h1, heq, List.count_cons_self]
        ring
    · next hne =>
      obtain ⟨h1, h2⟩ := ih hv h
      exact ⟨by rw [h1, List.count_cons_of_ne (by simpa using hne)], h2⟩

/-- A scan of one length that hits a symbol has skipped one interval for each earlier symbol of that length, and the
prefix lies in the symbol's interval. -/
theorem scanSymbols_hit {l v : Nat} {xs : List Nat} {i pos sym : Nat} (hv : pos ≤ v)
    (h : scanSymbols l v xs i pos = .hit sym) :
    ∃ j, sym = i + j ∧ j < xs.length ∧ xs.getD j 0 = l
      ∧ pos + (xs.take j).count l * 2 ^ (16 - l) ≤ v
      ∧ v < pos + (xs.take j).count l * 2 ^ (16 - l) + 2 ^ (16 - l) := by
  induction xs generalizing i pos with
  | nil => cases h
  | cons x xs ih =>
    unfold scanSymbols at h
    split at h
    · next heq =>
      split at h
      · next hlt =>
        cases h
        exact ⟨0, by simp, by simp, by simpa using heq, by simpa using hv, by simpa using hlt⟩
      · obtain ⟨j, h1, h2, h3, h4, h5⟩ := ih (by omega) h
        refine ⟨j + 1, by omega, by simpa using h2, by simpa using h3, ?_, ?_⟩ <;>
          · rw [List.take_succ_cons, heq, List.count_cons_self, Nat.add_mul]
            omega
    · next hne =>
      obtain ⟨j, h1, h2, h3, h4, h5⟩ := ih hv h
      refine ⟨j + 1, by omega, by simpa using h2, by simpa using h3, ?_, ?_⟩ <;>
        · rw [List.take_succ_cons, List.count_cons_of_ne (by simpa using hne)]
          assumption

/-- The code space of the lengths `ls`. -/
theorem scanLengths_none {lens : List Nat} {v : Nat} {ls : List Nat} {pos : Nat} (hv : pos ≤ v)
    (h : scanLengths lens v ls pos = none) :
    pos + (ls.map fun l => lens.count l * 2 ^ (16 - l)).sum ≤ v := by
  induction ls generalizing pos with
  | nil => simpa using hv
  | cons l ls ih =>
    unfold scanLengths at h
    split at h
    · cases h
    · next pos' hs =>
      obtain ⟨h1, h2⟩ := scanSymbols_past hv hs
      have := ih h2 h
      simp only [List.map_cons, List.sum_cons]
      omega

/-- A symbol found is one of the array, with its own length, and the length is one of those scanned. -/
theorem scanLengths_some {lens : List Nat} {v : Nat} {ls : List Nat} {pos sym l : Nat} (hv : pos ≤ v)
    (h : scanLengths lens v ls pos = some (sym, l)) : sym < lens.length ∧ lens.getD sym 0 = l ∧ l ∈ ls := by
  induction ls generalizing pos with
  | nil => cases h
  | cons x ls ih =>
    unfold scanLengths at h
    split at h
    · next i hs =>
      obtain ⟨j, h1, h2, h3, _⟩ := scanSymbols_hit hv hs
      cases h
      rw [Nat.zero_add] at h1
      exact ⟨h1 ▸ h2, h1 ▸ h3, List.mem_cons_self ..⟩
    · next pos' hs =>
      obtain ⟨h1, h2, h3⟩ := ih (scanSymbols_past hv hs).2 h
      exact ⟨h1, h2, List.mem_cons_of_mem _ h3⟩

/-! ## The Kraft sum -/

theorem sum_count_cons (f : Nat → Nat) (x : Nat) (xs : List Nat) {ls : List Nat} (h : ls.Nodup) :
    (ls.map fun l => (x :: xs).count l * f l).sum
      = (if x ∈ ls then f x else 0) + (ls.map fun l => xs.count l * f l).sum := by
  induction ls with
  | nil => simp
  | cons l ls ih =>
    obtain ⟨hl, hnd⟩ := List.nodup_cons.mp h
    rw [List.map_cons, List.sum_cons, ih hnd, List.map_cons, List.sum_cons, List.count_cons]
    by_cases hx : x = l
    · subst hx
      simp only [BEq.rfl, if_true, if_neg hl, List.mem_cons_self]
      ring
    · simp only [beq_iff_eq, List.mem_cons, hx, false_or, if_false]
      ring

/-- The Kraft sum, gathered by code length in the order of the scan. -/
theorem kraft_eq_sum {lens : List Nat} (h : ∀ l ∈ lens, l ≤ 16) :
    kraft lens
      = ([1, 2, 3, 4, 5, 6, 7, 8, 9, 10, 11, 12, 13, 14, 15, 16].map fun l => lens.count l * 2 ^ (16 - l)).sum := by
  induction lens with
  | nil => simp [kraft]
  | cons x xs ih =>
    have hx : x ≤ 16 := h x (List.mem_cons_self ..)
    rw [kraft, ih fun l hl => h l (List.mem_cons_of_mem _ hl), sum_count_cons _ _ _ (by decide)]
    congr 1
    by_cases h0 : x = 0
    · subst h0
      simp
    · rw [if_neg h0, if_pos (by simp only [List.mem_cons, List.not_mem_nil]; omega)]

/-- A complete tree has a symbol for every 16-bit prefix (42_huffman.md R107). -/
theorem findSymbol_of_complete {lens : List Nat} {v : Nat} (hl : ∀ l ∈ lens, l ≤ 16) (hk : kraft lens = 65536)
    (hv : v < 65536) :
    ∃ sym l, findSymbol lens v = some (sym, l) ∧ sym < lens.length ∧ lens.getD sym 0 = l ∧ 1 ≤ l ∧ l ≤ 16 := by
  cases hf : findSymbol lens v with
  | none =>
    have := scanLengths_none (Nat.zero_le v) hf
    rw [← kraft_eq_sum hl, hk] at this
    omega
  | some p =>
    obtain ⟨sym, l⟩ := p
    obtain ⟨h1, h2, h3⟩ := scanLengths_some (Nat.zero_le v) hf
    refine ⟨sym, l, rfl, h1, h2, ?_, ?_⟩ <;> · simp at h3; omega

/-! ## Build and decode -/

theorem builtLens_iff (ls : List Nat) : builtLens ls = true ↔ kraft ls = 65536 ∨ kraft ls = 0 := by
  simp [builtLens]

theorem lensOk_iff (n m : Nat) (ls : List Nat) : lensOk n m ls = true ↔ ls.length = n ∧ ∀ l ∈ ls, l ≤ m := by
  simp [lensOk]

/-- `build` accepts the complete and the empty tree and changes nothing (42_huffman.md R106). -/
theorem build_post (tr : Tree) (s : State) :
    (build tr s).post (fun _ t => t = s ∧ builtLens (tr.lens s) = true) (· = tr.invalid) := by
  unfold build
  split
  · next h => exact ⟨rfl, (builtLens_iff _).mpr h⟩
  · rfl

/-- A decode from a built tree gives a coded symbol and consumes its code; it is never refused
(42_huffman.md R108, R109). -/
theorem decodeSymbol_post (tr : Tree) (s : State) (hb : builtLens (tr.lens s) = true)
    (hl : ∀ l ∈ tr.lens s, l ≤ 16) :
    (decodeSymbol tr s).post
      (fun sym t => readerOnly s t ∧ sym < (tr.lens s).length ∧ 1 ≤ (tr.lens s).getD sym 0
        ∧ readerProgress t.sess = readerProgress s.sess + (tr.lens s).getD sym 0
        ∧ t.sess.rdQ.length ≤ max s.sess.rdQ.length 31)
      (fun e => (e = tr.empty ∧ kraft (tr.lens s) = 0) ∨ e = .bitsExhausted) := by
  unfold decodeSymbol
  split
  · next h => exact .inl ⟨rfl, h⟩
  · next hk =>
    have hk' : kraft (tr.lens s) = 65536 := ((builtLens_iff _).mp hb).resolve_right hk
    have hlen := ensure_le_length 16 s
    have hlt : bitsVal ((ensure 16 s).sess.rdQ.take 16) < 65536 := by
      have := bitsVal_lt ((ensure 16 s).sess.rdQ.take 16)
      rw [List.length_take, Nat.min_eq_left hlen] at this
      exact this
    obtain ⟨sym, l, hf, h1, h2, h3, h4⟩ := findSymbol_of_complete hl hk' hlt
    simp only [peek, if_neg (Nat.not_lt.mpr hlen), Res.ok_bind, hf, remove]
    split
    · refine ⟨readerOnly_trans (ensure_readerOnly 16 s) (readerOnly_setReader _ _ _), h1, by omega, ?_, ?_⟩
      · have hp := ensure_progress 16 s
        simp only [readerProgress, State.setReader_sess, List.length_drop] at *
        omega
      · have := ensure_length_le 16 s
        simp only [State.setReader_sess, List.length_drop]
        omega
    · exact .inr rfl

end Sys2Proof.Machine
end

