-- ==== Sys2Proof/Laws/Output.lean ====
section
/-! SUPPORT. What the output path does (44_lzx_symbols.md R129 to R131, R140, R141): which fields an emit, a copy and the
accounting change, and how the memories keep their form. -/

namespace Sys2Proof.Machine

/-! ## Emits and copies -/

theorem windowIndex_lt {w : Nat} (h : 0 < w) (wpos off : Nat) : windowIndex wpos off w < w := Nat.mod_lt _ h

/-- A copy changes `OUT`, the window and its counters, and perhaps the count of draws. -/
theorem copyMatch_frame (n off : Nat) (s : State) :
    copyMatch n off s = { s with
      out := (copyMatch n off s).out
      draws := (copyMatch n off s).draws
      sess := { s.sess with
        win := (copyMatch n off s).sess.win
        wpos := (copyMatch n off s).sess.wpos
        written := (copyMatch n off s).sess.written
        produced := s.sess.produced + n } } := by
  induction n generalizing s with
  | zero => rfl
  | succ n ih =>
    have hd := readCell_drawsOnly s s.sess.win (windowIndex s.sess.wpos off s.cfg.windowSize)
    rw [copyMatch, ih]
    generalize s.readCell s.sess.win (windowIndex s.sess.wpos off s.cfg.windowSize) = r at *
    unfold drawsOnly at hd
    rw [hd]
    simp only [emit]
    congr 2
    omega

/-- The counters after a copy (44_lzx_symbols.md R129). -/
theorem copyMatch_counters (n off : Nat) (s : State) (hp : s.sess.wpos < s.cfg.windowSize)
    (hw : s.sess.written ≤ s.cfg.windowSize) :
    (copyMatch n off s).sess.wpos = (s.sess.wpos + n) % s.cfg.windowSize
      ∧ (copyMatch n off s).sess.written = min (s.sess.written + n) s.cfg.windowSize := by
  induction n generalizing s with
  | zero => exact ⟨(Nat.mod_eq_of_lt hp).symm, (Nat.min_eq_left hw).symm⟩
  | succ n ih =>
    have hd := readCell_drawsOnly s s.sess.win (windowIndex s.sess.wpos off s.cfg.windowSize)
    rw [copyMatch]
    generalize s.readCell s.sess.win (windowIndex s.sess.wpos off s.cfg.windowSize) = r at *
    unfold drawsOnly at hd
    rw [hd]
    have h0 : 0 < s.cfg.windowSize := by omega
    obtain ⟨h1, h2⟩ := ih (emit r.1 { s with draws := r.2.draws }) (Nat.mod_lt _ h0) (Nat.min_le_right ..)
    rw [h1, h2]
    simp only [emit]
    constructor
    · rw [Nat.mod_add_mod]
      congr 1
      omega
    · omega

/-- The memories after a copy keep their form and stay inside their capacities. -/
theorem copyMatch_memories (n off : Nat) (s : State) {c : Nat} (ho : s.out.wf = true) (hob : s.out.below c = true)
    (hc : s.sess.produced + n ≤ c) (hw : s.sess.win.wf = true) (hwb : s.sess.win.below s.cfg.windowSize = true)
    (hp : s.sess.wpos < s.cfg.windowSize) :
    (copyMatch n off s).out.wf = true ∧ (copyMatch n off s).out.below c = true
      ∧ (copyMatch n off s).sess.win.wf = true
      ∧ (copyMatch n off s).sess.win.below s.cfg.windowSize = true := by
  induction n generalizing s with
  | zero => exact ⟨ho, hob, hw, hwb⟩
  | succ n ih =>
    have hd := readCell_drawsOnly s s.sess.win (windowIndex s.sess.wpos off s.cfg.windowSize)
    rw [copyMatch]
    generalize s.readCell s.sess.win (windowIndex s.sess.wpos off s.cfg.windowSize) = r at *
    unfold drawsOnly at hd
    rw [hd]
    have h0 : 0 < s.cfg.windowSize := by omega
    exact ih (emit r.1 { s with draws := r.2.draws }) (Memory.wf_set ho _ _)
      (Memory.below_set hob (by show s.sess.produced < c; omega) _) (by simp only [emit]; omega) (Memory.wf_set hw _ _)
      (Memory.below_set hwb hp _) (Nat.mod_lt _ h0)

/-! ## Checks -/

/-- `check` passes exactly when the four tests do (44_lzx_symbols.md R140). -/
theorem checkMatch_eq_none (len off : Nat) (s : State) : checkMatch len off s = none ↔ matchAllowed len off s := by
  unfold checkMatch matchAllowed
  constructor
  · intro h
    split at h <;> try cases h
    split at h <;> try cases h
    split at h <;> try cases h
    split at h <;> try cases h
    omega
  · rintro ⟨h1, h2, h3, h4, h5⟩
    rw [if_neg (by omega), if_neg (by omega), if_neg (by omega), if_neg (by omega)]

/-! ## The history law -/

/-- An emit keeps the history law: the cells of the last `written` bytes hold bytes (10_state.md R45). -/
theorem sessionHistory_emit {s : State} (b : Byte) (h : sessionHistory s.cfg s.sess) :
    sessionHistory s.cfg (emit b s).sess := by
  obtain ⟨h1, h2, h3⟩ := h
  have h0 : 0 < s.cfg.windowSize := by omega
  refine ⟨Nat.mod_lt _ h0, Nat.min_le_right .., fun j hj => ?_⟩
  simp only [emit_sess] at hj ⊢
  rw [Memory.get?_set]
  split
  · rfl
  · next hne =>
    cases j with
    | zero =>
      exfalso; apply hne
      unfold windowIndex
      rcases Nat.lt_or_ge (s.sess.wpos + 1) s.cfg.windowSize with hc | hc
      · rw [Nat.mod_eq_of_lt hc]
        rcases Nat.lt_or_ge 1 s.cfg.windowSize with hw | hw
        · rw [Nat.mod_eq_of_lt hw, show s.sess.wpos + 1 + s.cfg.windowSize - 1 = s.sess.wpos + s.cfg.windowSize by omega, Nat.add_mod_right, Nat.mod_eq_of_lt h1]
        · have : s.cfg.windowSize = 1 := by omega
          rw [this] at h1 ⊢; omega
      · have : s.sess.wpos + 1 = s.cfg.windowSize := by omega
        rw [this, Nat.mod_self]
        rcases Nat.lt_or_ge 1 s.cfg.windowSize with hw | hw
        · rw [Nat.mod_eq_of_lt hw, Nat.mod_eq_of_lt (by omega)]; omega
        · have : s.cfg.windowSize = 1 := by omega
          simp [this]; omega
    | succ j =>
      have hj' : j < s.sess.written := by omega
      have := h3 j hj'
      have he : windowIndex ((s.sess.wpos + 1) % s.cfg.windowSize) (j + 1 + 1) s.cfg.windowSize = windowIndex s.sess.wpos (j + 1) s.cfg.windowSize := by
        unfold windowIndex
        generalize hW : s.cfg.windowSize = W at *
        have hjW : j + 1 < W := by omega
        rw [Nat.mod_eq_of_lt hjW]
        rcases Nat.lt_or_ge (j+1+1) W with hc | hc
        · rw [Nat.mod_eq_of_lt hc]
          rcases Nat.lt_or_ge (s.sess.wpos + 1) W with hd | hd
          · rw [Nat.mod_eq_of_lt hd]; congr 1; omega
          · have : s.sess.wpos + 1 = W := by omega
            rw [this, Nat.mod_self, show s.sess.wpos + W - (j+1) = (0 + W - (j+1+1)) + W by omega, Nat.add_mod_right]
        · have : j + 1 + 1 = W := by omega
          rw [this, Nat.mod_self]
          rw [Nat.sub_zero, Nat.add_mod_right, Nat.mod_mod]
          congr 1; omega
      rw [he]; exact this

/-! ## Accounting -/

/-- The end of an element's step, in one record (44_lzx_symbols.md R130). -/
theorem afterElement_eq (s : State) :
    afterElement s = { s with
      pend := none
      sess := { s.sess with
        ds := (afterCounts s.sess s.sess.blockRem s.sess.frameRem).1
        inPos := (afterCounts s.sess s.sess.blockRem s.sess.frameRem).2 } } := by
  unfold afterElement afterCounts
  split
  · rfl
  · split <;> rfl

/-- The accounting where no pad byte is due: a block that is not Uncompressed (44_lzx_symbols.md R130, R131). -/
theorem account_of_ne (k : Nat) (s : State) (h : s.sess.blockType ≠ 3) :
    account k s = { s with
      pend := none
      sess := { s.sess with
        blockRem := s.sess.blockRem - k
        frameRem := s.sess.frameRem - k
        ds := (afterCounts s.sess (s.sess.blockRem - k) (s.sess.frameRem - k)).1
        inPos := (afterCounts s.sess (s.sess.blockRem - k) (s.sess.frameRem - k)).2 } } := by
  have hb : (s.sess.blockType == 3) = false := by simpa using h
  unfold account
  simp only [oddPadDue, hb, Bool.false_and, blockEnd, if_neg h, afterElement_eq]
  split <;> rfl

end Sys2Proof.Machine
end

