-- ==== Sys2Proof/Laws/Element.lean ====
section
/-! SUPPORT. What running an element can answer: a committed or awaiting state, or the entry to FAILED. -/

namespace Sys2Proof.Machine

/-- Entering FAILED is what 60_exceptions.md R174 and R175 say. -/
theorem takeFault_faulted (e : SessionError) (d : Nat) (s : State) : faulted e s (takeFault e d (begin s)) := by
  unfold faulted
  have hseen : (({ begin s with draws := d } : State)).seen = s.seen := seen_begin s
  have hpos : errPosOf s.seen =
      if s.seen.ds = .container ∨ s.seen.ds = .rawCopy then 0
      else if s.seen.ds = .frameHdr then s.seen.inPos
      else s.seen.fhdrPos := by
    unfold errPosOf
    cases s.seen.ds <;> rfl
  simp only [takeFault, enterFailed, hseen, hpos]
  rw [begin_eq s]

/-- An element that succeeds ends in the state its pseudocode gives. -/
theorem runElement_ok {s t : State} {f : State → Res Unit} (h : f (begin s) = .ok () t) :
    runElement s f = .next t := by
  unfold runElement
  rw [h]

/-- An element that raises a fault enters FAILED. -/
theorem runElement_raise {s : State} {f : State → Res Unit} {e : SessionError} {d : Nat}
    (h : f (begin s) = .raise e d) : ∃ t, runElement s f = .next t ∧ faulted e s t := by
  refine ⟨takeFault e d (begin s), ?_, takeFault_faulted e d s⟩
  unfold runElement
  rw [h]

/-- A next state of an element comes from its pseudocode or from a fault it raised. -/
theorem runElement_next {s t : State} {f : State → Res Unit} (h : runElement s f = .next t) :
    f (begin s) = .ok () t ∨ ∃ e d, f (begin s) = .raise e d ∧ t = takeFault e d (begin s) := by
  unfold runElement at h
  split at h
  · next _ _ heq => cases h; exact .inl heq
  · next e d heq => cases h; exact .inr ⟨e, d, heq, rfl⟩
  · cases h

/-- An element whose pseudocode is never refused answers a next state. -/
theorem runElement_post {s : State} {f : State → Res Unit} {P : Unit → State → Prop} {E : SessionError → Prop}
    (h : (f (begin s)).post P E) :
    ∃ t, runElement s f = .next t ∧ (P () t ∨ ∃ e, E e ∧ faulted e s t) := by
  unfold runElement
  split
  · next u t heq =>
    rw [heq] at h
    exact ⟨t, rfl, .inl h⟩
  · next e d heq =>
    rw [heq] at h
    exact ⟨_, rfl, .inr ⟨e, h, takeFault_faulted e d s⟩⟩
  · next r heq =>
    rw [heq] at h
    exact h.elim

end Sys2Proof.Machine
end

