-- ==== Sys2Proof/Laws/Step.lean ====
section
/-! SUPPORT. Everything a step can do, said once: no turn, a reset, the end of a session, an element, or a fault of its
fetching. -/

namespace Sys2Proof.Machine

/-- Where a next state of the step comes from. -/
theorem step_cases {s t : State} (h : step s = .next t) :
    s.cfg.valid = true
      ∧ (fetch s = .quiet t
        ∨ (∃ s', fetch s = .reset s' ∧ t = hardReset s')
        ∨ (∃ s', fetch s = .complete s' ∧ t = endDone s')
        ∨ (∃ w s' i, fetch s = .element w s' ∧ instrOf s'.cfg w = some i ∧ exec i s' = .next t)
        ∨ ∃ e d s', fetch s = .raised e d s' ∧ t = takeFault e d (begin s')) := by
  unfold step at h
  split at h
  · cases h
  · next hv =>
    refine ⟨by simpa using hv, ?_⟩
    split at h
    · next hf => cases h; exact .inl hf
    · next s' hf => cases h; exact .inr (.inl ⟨s', hf, rfl⟩)
    · next s' hf => cases h; exact .inr (.inr (.inl ⟨s', hf, rfl⟩))
    · next w s' hf =>
      split at h
      · next i hi => exact .inr (.inr (.inr (.inl ⟨w, s', i, hf, hi, h⟩)))
      · cases h
    · next e d s' hf => cases h; exact .inr (.inr (.inr (.inr ⟨e, d, s', hf, rfl⟩)))
    · cases h
    · cases h

/-- Where the fetching of a word by the engine comes from. -/
theorem turnedOf_element {s s' : State} {r : Option (Res Fetched)} {w : Fetched}
    (h : turnedOf s r = .element w s') : r = some (.ok w s') := by
  unfold turnedOf at h
  split at h <;> cases h
  rfl

/-- A fetched word is an element of the step in progress, of the engine state, or the host access whose turn it is. -/
theorem fetch_element {s s' : State} {w : Fetched} (h : fetch s = .element w s') :
    (∃ p, s.pend = some p ∧ fetchByContext p.ctx s = some (.ok w s'))
      ∨ (s.pend = none ∧ ∃ s0, (s0 = s ∧ s.sched = [] ∨ ∃ rest, s.sched = .engine :: rest ∧ s0 = { s with sched := rest })
        ∧ s.busy = true ∧ fetchByState (begin s0) = some (.ok w s'))
      ∨ (s.pend = none ∧ ∃ a rest, s.sched = .host a :: rest ∧ w = .host a ∧ s' = { s with sched := rest }) := by
  have engine : ∀ s0 : State, s0.busy = s.busy → engineTurn s0 = .element w s' →
      s.busy = true ∧ fetchByState (begin s0) = some (.ok w s') := by
    intro s0 hb h0
    unfold engineTurn at h0
    split at h0
    · cases h0
    · next hne =>
      split at h0
      · cases h0
      · exact ⟨by simpa [hb] using hne, turnedOf_element h0⟩
  unfold fetch at h
  split at h
  · next p hp => exact .inl ⟨p, hp, turnedOf_element h⟩
  · next hp =>
    split at h
    · next hs => exact .inr (.inl ⟨hp, s, .inl ⟨rfl, hs⟩, engine s rfl h⟩)
    · next rest hs => exact .inr (.inl ⟨hp, _, .inr ⟨rest, hs, rfl⟩, engine _ rfl h⟩)
    · cases h
    · next a rest hs => cases h; exact .inr (.inr ⟨hp, a, rest, hs, rfl, rfl⟩)

end Sys2Proof.Machine
end

