-- ==== Sys2Proof/Laws/Trees.lean ====
section
/-! SUPPORT. What the tree-reading operations do (43_lzx_blocks.md R122 to R128): the run writes, the modulo-17 lengths, and
the reads of a field or symbol as equations. -/

namespace Sys2Proof.Machine

/-- A field that is read changes the reader alone. -/
theorem readBits_ok_readerOnly {n v : Nat} {s t : State} (h : readBits n s = .ok v t) : readerOnly s t := by
  have hp := readBits_post n s
  rw [h] at hp
  exact hp.1

/-- The one fault a field can raise. -/
theorem readBits_raise_eq {n d : Nat} {s : State} {e : SessionError} (h : readBits n s = .raise e d) :
    e = .bitsExhausted := by
  have hp := readBits_post n s
  rw [h] at hp
  exact hp

/-- Fields that are read change the reader alone. -/
theorem readFields_ok_readerOnly {n k : Nat} {vs : List Nat} {s t : State} (h : readFields n k s = .ok vs t) :
    readerOnly s t := by
  have hp := readFields_post n k s
  rw [h] at hp
  exact hp.1

/-- A symbol that is decoded, from whatever lengths, changes the reader alone. -/
theorem decodeSymbol_ok_readerOnly {tr : Tree} {v : Nat} {s t : State} (h : decodeSymbol tr s = .ok v t) :
    readerOnly s t := by
  have he := ensure_readerOnly 16 s
  unfold decodeSymbol at h
  split at h
  · cases h
  · simp only [peek] at h
    split at h
    · cases h
    · simp only [Res.ok_bind] at h
      split at h
      · cases h
      · simp only [remove] at h
        split at h
        · cases h
          exact readerOnly_trans he (readerOnly_setReader _ _ _)
        · cases h

/-- The state behind a read that began the element in `s`. -/
theorem readerOnly_begin_eq {s t : State} (h : readerOnly (begin s) t) :
    t = { s with
      pend := some ⟨s.seen, awaited s⟩
      draws := t.draws
      sess := { s.sess with rdC := t.sess.rdC, rdQ := t.sess.rdQ } } := by
  have hb := begin_eq s
  rw [begin_pend s] at hb
  unfold readerOnly at h
  rw [hb] at h
  exact h

@[simp] theorem fillEntries_length (ls : List Nat) (x k v : Nat) : (fillEntries ls x k v).length = ls.length := by
  induction ls generalizing x k with
  | nil => rfl
  | cons y ys ih =>
    cases x with
    | zero => cases k <;> simp [fillEntries, ih]
    | succ x => simp [fillEntries, ih]

/-- A run writes its entries and no other. -/
theorem fillEntries_getD (ls : List Nat) (x k v j : Nat) (hj : j < ls.length) :
    (fillEntries ls x k v).getD j 0 = if x ≤ j ∧ j < x + k then v else ls.getD j 0 := by
  induction ls generalizing x k j with
  | nil => simp at hj
  | cons y ys ih =>
    cases x with
    | zero =>
      cases k with
      | zero => simp [fillEntries]
      | succ k =>
        cases j with
        | zero => simp [fillEntries]
        | succ j =>
          simp only [fillEntries, List.getD_cons_succ]
          rw [ih _ _ _ (by simpa using hj)]
          congr 1
          simp
    | succ x =>
      cases j with
      | zero => simp [fillEntries]
      | succ j =>
        simp only [fillEntries, List.getD_cons_succ]
        rw [ih _ _ _ (by simpa using hj)]
        congr 1
        simp
        omega

/-- `deltaMod17` is the remainder of the integer difference (00_scope.md R8). -/
theorem deltaMod17_eq (old z : Nat) : (deltaMod17 old z : Int) = ((old : Int) - z) % 17 := by
  unfold deltaMod17
  omega

end Sys2Proof.Machine
end

