-- ==== Sys2Proof/Tests/Slice0.lean ====
section
/-! SUPPORT. Tests: an ill-formed term for each check of WellFormed, the decoding of a word of every constructor, one step
of every instruction family, and for every obligation with hypotheses a named witness that they can all be met.
Expected values are the spec's own: the tables of 30_encoding.md, the Example lines of the rules, 95_test_vectors.md. -/

namespace Sys2Proof.Machine.Tests

open Sys2Proof Sys2Proof.Machine

/-! ## Well-formedness: one ill-formed term for each check -/

theorem test_illFormed_contRaw_flag : Instr.wellFormed Params.default (.contRaw 0 0 0x80) = false := by decide
theorem test_illFormed_contCompressed_flag : Instr.wellFormed Params.default (.contCompressed 0 0 0x7F) = false := by decide
theorem test_illFormed_contBadmagic_signature : Instr.wellFormed Params.default (.contBadmagic 0x584E42) = false := by decide
theorem test_illFormed_frameStd_sentinel : Instr.wellFormed Params.default (.frameStd 0xFF) = false := by decide
theorem test_illFormed_blkInvalid_verbatim : Instr.wellFormed Params.default (.blkInvalid 1) = false := by decide
theorem test_illFormed_blkInvalid_aligned : Instr.wellFormed Params.default (.blkInvalid 2) = false := by decide
theorem test_illFormed_blkInvalid_uncomp : Instr.wellFormed Params.default (.blkInvalid 3) = false := by decide
theorem test_illFormed_preDelta_17 : Instr.wellFormed Params.default (.preDelta 17) = false := by decide
theorem test_illFormed_matchS32_absent : Instr.wellFormed Params.default (.matchS32 0) = false := by decide
theorem test_illFormed_csrRead_misaligned : Instr.wellFormed Params.default (.csrRead 0x002) = false := by decide
theorem test_illFormed_csrWrite_misaligned : Instr.wellFormed Params.default (.csrWrite 0x001 0) = false := by decide
theorem test_illFormed_csrWrite_ctrl : Instr.wellFormed Params.default (.csrWrite 0x004 0) = false := by decide
theorem test_illFormed_csrWrite_status : Instr.wellFormed Params.default (.csrWrite 0x008 0) = false := by decide
theorem test_illFormed_csrWrite_inLen : Instr.wellFormed Params.default (.csrWrite 0x014 0) = false := by decide
theorem test_illFormed_start_bit0 : Instr.wellFormed Params.default (.start 0) = false := by decide
theorem test_illFormed_start_bit1 : Instr.wellFormed Params.default (.start 3) = false := by decide
theorem test_illFormed_softReset_bit1 : Instr.wellFormed Params.default (.softReset 1) = false := by decide
theorem test_illFormed_irqEn_bit0 : Instr.wellFormed Params.default (.irqEn 1) = false := by decide
theorem test_illFormed_irqEn_bit1 : Instr.wellFormed Params.default (.irqEn 2) = false := by decide
theorem test_illFormed_inWrite_16bit : Instr.wellFormed Params.default (.inWrite 0 .b16 0) = false := by decide
theorem test_illFormed_inWrite_misaligned : Instr.wellFormed Params.default (.inWrite 2 .b32 0) = false := by decide
theorem test_illFormed_inRead_16bit : Instr.wellFormed Params.default (.inRead 0 .b16) = false := by decide
theorem test_illFormed_outRead_misaligned : Instr.wellFormed Params.default (.outRead 1 .b32) = false := by decide
theorem test_illFormed_busError_placed : Instr.wellFormed Params.default (.busError (.read 0x00000000 .b32)) = false := by decide

/-- Slots 30 and up need a wider window than 15 bits, 34 and up one of 18 (30_encoding.md R77). -/
theorem test_illFormed_slots :
    ([Instr.matchS30 0, .matchS31 0].all fun i => !i.wellFormed { Params.default with windowBits := 15 }) = true
      ∧ ([Instr.matchS34 0, .matchS35 0].all fun i => !i.wellFormed { Params.default with windowBits := 17 }) = true
      ∧ Instr.wellFormed { Params.default with windowBits := 18 } (.matchS35 7) = true := by decide

/-! ## Decoding: a word of every constructor, written out from 30_encoding.md and 20_memory.md R59 -/

theorem test_decode_contRaw : decode Params.default (.container 0x584E42770500) = .ok (.contRaw 0x77 0x05 0x00) := by decide
theorem test_decode_contCompressed : decode Params.default (.container 0x584E42770580) = .ok (.contCompressed 0x77 0x05 0x80) := by decide
theorem test_decode_contBadmagic : decode Params.default (.container 0x584E43000000) = .ok (.contBadmagic 0x584E43) := by decide
theorem test_decode_rawCopy : decode Params.default (.rawPayload) = .ok (.rawCopy) := by decide
theorem test_decode_frameExt : decode Params.default (.frame 0b11111111) = .ok (.frameExt) := by decide
theorem test_decode_frameStd : decode Params.default (.frame 0b00010010) = .ok (.frameStd 0x12) := by decide
theorem test_decode_e8Off : decode Params.default (.stream 0b0) = .ok (.e8Off) := by decide
theorem test_decode_e8On : decode Params.default (.stream 0b1) = .ok (.e8On) := by decide
theorem test_decode_blkVerbatim : decode Params.default (.block 0b001) = .ok (.blkVerbatim) := by decide
theorem test_decode_blkAligned : decode Params.default (.block 0b010) = .ok (.blkAligned) := by decide
theorem test_decode_blkUncomp : decode Params.default (.block 0b011) = .ok (.blkUncomp) := by decide
theorem test_decode_blkInvalid : decode Params.default (.block 0b100) = .ok (.blkInvalid 4) := by decide
theorem test_decode_alignedLens : decode Params.default (.alignedLens) = .ok (.alignedLens) := by decide
theorem test_decode_pretree : decode Params.default (.pretree) = .ok (.pretree) := by decide
theorem test_decode_preDelta : decode Params.default (.preSym 0b10000) = .ok (.preDelta 16) := by decide
theorem test_decode_preZeroShort : decode Params.default (.preSym 0b10001) = .ok (.preZeroShort) := by decide
theorem test_decode_preZeroLong : decode Params.default (.preSym 0b10010) = .ok (.preZeroLong) := by decide
theorem test_decode_preRepeat : decode Params.default (.preSym 0b10011) = .ok (.preRepeat) := by decide
theorem test_decode_mainLiteral : decode Params.default (.mainSym 0b0001000001) = .ok (.mainLiteral 0x41) := by decide
theorem test_decode_lenFooter : decode Params.default (.lenFooter 0b111) = .ok (.lenFooter) := by decide
theorem test_decode_alignedSym : decode Params.default (.alignedSym) = .ok (.alignedSym) := by decide
theorem test_decode_uncompAlignR : decode Params.default (.uncompBody) = .ok (.uncompAlignR) := by decide
theorem test_decode_rawByte : decode Params.default (.rawByte 0x48) = .ok (.rawByte 0x48) := by decide
theorem test_decode_oddPad : decode Params.default (.oddPad) = .ok (.oddPad) := by decide
theorem test_decode_csrRead : decode Params.default (.host (.read 0x00000008 .b32)) = .ok (.csrRead 0x008) := by decide
theorem test_decode_csrWrite : decode Params.default (.host (.write 0x00000000 .b32 0x12345678)) = .ok (.csrWrite 0x000 0x12345678) := by decide
theorem test_decode_start : decode Params.default (.host (.write 0x00000004 .b32 0b101)) = .ok (.start 5) := by decide
theorem test_decode_softReset : decode Params.default (.host (.write 0x00000004 .b32 0b010)) = .ok (.softReset 2) := by decide
theorem test_decode_irqEn : decode Params.default (.host (.write 0x00000004 .b32 0b100)) = .ok (.irqEn 4) := by decide
theorem test_decode_w1c : decode Params.default (.host (.write 0x00000008 .b32 0x22)) = .ok (.w1c 0x22) := by decide
theorem test_decode_inLen : decode Params.default (.host (.write 0x00000014 .b32 69)) = .ok (.inLen 69) := by decide
theorem test_decode_inWrite : decode Params.default (.host (.write 0x00100000 .b32 0x77424E58)) = .ok (.inWrite 0 .b32 0x77424E58) := by decide
theorem test_decode_inRead : decode Params.default (.host (.read 0x00100001 .b8)) = .ok (.inRead 1 .b8) := by decide
theorem test_decode_outRead : decode Params.default (.host (.read 0x002FFFFC .b32)) = .ok (.outRead 0xFFFFC .b32) := by decide
theorem test_decode_outWrite : decode Params.default (.host (.write 0x00200000 .b16 1)) = .ok (.outWrite 0 .b16 1) := by decide
theorem test_decode_busError : decode Params.default (.host (.read 0x00300000 .b32)) = .ok (.busError (.read 0x00300000 .b32)) := by decide

/-- Main symbols of every slot: `256 + 8 * slot + lh`, written out in binary (30_encoding.md R75). -/
theorem test_decode_matchR0 : decode Params.default (.mainSym 0b0100000011) = .ok (.matchR0 3) := by decide
theorem test_decode_matchR1 : decode Params.default (.mainSym 0b0100001000) = .ok (.matchR1 0) := by decide
theorem test_decode_matchR2 : decode Params.default (.mainSym 0b0100010101) = .ok (.matchR2 5) := by decide
theorem test_decode_matchS3 : decode Params.default (.mainSym 0b0100011010) = .ok (.matchS3 2) := by decide
theorem test_decode_matchS4 : decode Params.default (.mainSym 0b0100100111) = .ok (.matchS4 7) := by decide
theorem test_decode_matchS5 : decode Params.default (.mainSym 0b0100101100) = .ok (.matchS5 4) := by decide
theorem test_decode_matchS6 : decode Params.default (.mainSym 0b0100110001) = .ok (.matchS6 1) := by decide
theorem test_decode_matchS7 : decode Params.default (.mainSym 0b0100111110) = .ok (.matchS7 6) := by decide
theorem test_decode_matchS8 : decode Params.default (.mainSym 0b0101000011) = .ok (.matchS8 3) := by decide
theorem test_decode_matchS9 : decode Params.default (.mainSym 0b0101001000) = .ok (.matchS9 0) := by decide
theorem test_decode_matchS10 : decode Params.default (.mainSym 0b0101010101) = .ok (.matchS10 5) := by decide
theorem test_decode_matchS11 : decode Params.default (.mainSym 0b0101011010) = .ok (.matchS11 2) := by decide
theorem test_decode_matchS12 : decode Params.default (.mainSym 0b0101100111) = .ok (.matchS12 7) := by decide
theorem test_decode_matchS13 : decode Params.default (.mainSym 0b0101101100) = .ok (.matchS13 4) := by decide
theorem test_decode_matchS14 : decode Params.default (.mainSym 0b0101110001) = .ok (.matchS14 1) := by decide
theorem test_decode_matchS15 : decode Params.default (.mainSym 0b0101111110) = .ok (.matchS15 6) := by decide
theorem test_decode_matchS16 : decode Params.default (.mainSym 0b0110000011) = .ok (.matchS16 3) := by decide
theorem test_decode_matchS17 : decode Params.default (.mainSym 0b0110001000) = .ok (.matchS17 0) := by decide
theorem test_decode_matchS18 : decode Params.default (.mainSym 0b0110010101) = .ok (.matchS18 5) := by decide
theorem test_decode_matchS19 : decode Params.default (.mainSym 0b0110011010) = .ok (.matchS19 2) := by decide
theorem test_decode_matchS20 : decode Params.default (.mainSym 0b0110100111) = .ok (.matchS20 7) := by decide
theorem test_decode_matchS21 : decode Params.default (.mainSym 0b0110101100) = .ok (.matchS21 4) := by decide
theorem test_decode_matchS22 : decode Params.default (.mainSym 0b0110110001) = .ok (.matchS22 1) := by decide
theorem test_decode_matchS23 : decode Params.default (.mainSym 0b0110111110) = .ok (.matchS23 6) := by decide
theorem test_decode_matchS24 : decode Params.default (.mainSym 0b0111000011) = .ok (.matchS24 3) := by decide
theorem test_decode_matchS25 : decode Params.default (.mainSym 0b0111001000) = .ok (.matchS25 0) := by decide
theorem test_decode_matchS26 : decode Params.default (.mainSym 0b0111010101) = .ok (.matchS26 5) := by decide
theorem test_decode_matchS27 : decode Params.default (.mainSym 0b0111011010) = .ok (.matchS27 2) := by decide
theorem test_decode_matchS28 : decode Params.default (.mainSym 0b0111100111) = .ok (.matchS28 7) := by decide
theorem test_decode_matchS29 : decode Params.default (.mainSym 0b0111101100) = .ok (.matchS29 4) := by decide
theorem test_decode_matchS30 : decode Params.default (.mainSym 0b0111110001) = .ok (.matchS30 1) := by decide
theorem test_decode_matchS31 : decode Params.default (.mainSym 0b0111111110) = .ok (.matchS31 6) := by decide
theorem test_decode_matchS32 : decode Params.default (.mainSym 0b1000000011) = .ok (.matchS32 3) := by decide
theorem test_decode_matchS33 : decode Params.default (.mainSym 0b1000001000) = .ok (.matchS33 0) := by decide
theorem test_decode_matchS34 : decode Params.default (.mainSym 0b1000010101) = .ok (.matchS34 5) := by decide
theorem test_decode_matchS35 : decode Params.default (.mainSym 0b1000011010) = .ok (.matchS35 2) := by decide

/-- Words that select no row are refused by name. -/
theorem test_decode_refused :
    decode Params.default (.preSym 20) = .error .noSuchPretreeSymbol
      ∧ decode Params.default (.mainSym 544) = .error .noSuchSlot
      ∧ decode Params.default (.lenFooter 6) = .error .noLengthFooter := by decide

/-! ## States for the tests -/

/-- A memory of bytes from an offset. -/
def mem (a : Nat) (bs : List Byte) : Memory := bs.mapIdx fun i b => (a + i, b)

/-- Stream bits inside the frame's data. -/
def bits (bs : List Bool) : List QBit := bs.map fun b => ⟨b, true⟩

/-- The bits of a field of `n` bits, most significant first. -/
def field (n v : Nat) : List Bool := (List.range n).map fun i => v.testBit (n - 1 - i)

/-- The default instance, idle, with an `IN` memory. -/
def idle (m : Memory) (len : Nat) : State := { State.resetOf Params.default with inp := m, inLen := len }

/-- The default instance in a session, in an engine state, after an update of the session. -/
def live (d : DState) (f : Session → Session) : State :=
  let s := State.resetOf Params.default
  { s with busy := true, sess := f { s.sess with ds := d, decSize := 100, frameRem := 60, headerRead := true } }

/-- The same with the step in progress awaiting an element. -/
def waiting (d : DState) (c : Ctx) (f : Session → Session) : State :=
  let s := live d f
  { s with pend := some ⟨s.sess, c⟩ }

/-- The next state of an instruction passes a test. -/
def after (i : Instr) (s : State) (f : State → Bool) : Bool :=
  match exec i s with
  | .next t => f t
  | _ => false

/-- The first bytes of `OUT`. -/
def outBytes (n : Nat) (s : State) : List (Option Byte) := (List.range n).map fun a => s.out.get? a

/-! ## One step: containers and frames -/

/-- 40_container.md R88, Example. -/
theorem test_contRaw :
    after (.contRaw 0x77 5 0)
      (idle (mem 0 [0x58, 0x4E, 0x42, 0x77, 0x05, 0x00, 0x0E, 0, 0, 0, 0x41, 0x42, 0x43, 0x44]) 14)
      (fun t => t.sess.ds == .rawCopy && t.sess.decSize == 4 && t.hdrFileSize == 14 && hdrInfoWord t == 0x0577
        && !t.compressed) = true := by decide

/-- 40_container.md R89, Example: the header of the AAAA file. -/
theorem test_contCompressed :
    after (.contCompressed 0x77 5 0x80)
      (idle (mem 0 [0x58, 0x4E, 0x42, 0x77, 0x05, 0x80, 0x45, 0, 0, 0, 4, 0, 0, 0]) 69)
      (fun t => t.sess.ds == .frameHdr && t.sess.decSize == 4 && t.sess.inPos == 14 && t.hdrFileSize == 0x45
        && t.hdrDecSize == 4 && t.compressed) = true := by decide

/-- 40_container.md R87, Example. -/
theorem test_contBadmagic :
    after (.contBadmagic 0x414243) (live .container id)
      (fun t => errWord t == 0x00000101 && t.failed && !t.busy && t.sess.ds == .failed) = true := by decide

/-- 40_container.md R90, Example. -/
theorem test_rawCopy :
    after .rawCopy { live .rawCopy (fun t => { t with decSize := 4 }) with
        inp := mem 10 [0x41, 0x42, 0x43, 0x44], inLen := 14 }
      (fun t => outBytes 5 t == [some 0x41, some 0x42, some 0x43, some 0x44, none] && t.outLen == 4 && t.done
        && !t.busy) = true := by decide

/-- 45_frame_demux.md R147, Example: the AAAA file's frame header. -/
theorem test_frameExt :
    after .frameExt { live .frameHdr (fun t => { t with inPos := 14, decSize := 4, headerRead := false }) with
        inp := mem 14 [0xFF, 0x00, 0x04, 0x00, 0x32], inLen := 69 }
      (fun t => t.sess.frameSize == 4 && t.sess.frameLen == 50 && t.sess.frameBase == 19
        && t.sess.ds == .streamHdr && t.sess.frameCount == 1) = true := by decide

/-- 45_frame_demux.md R146, Example. -/
theorem test_frameStd :
    after (.frameStd 0x12) { live .frameHdr (fun t => { t with inPos := 14, decSize := 32768 }) with
        inp := mem 14 [0x12, 0x34], inLen := 16 + 0x1234 }
      (fun t => t.sess.frameSize == 32768 && t.sess.frameLen == 0x1234 && t.sess.ds == .blockHdr) = true := by decide

/-- V-FRM-6 of 95_test_vectors.md: a block size of 0 faults, ERR_POS at the header. -/
theorem test_frameStd_zero :
    after (.frameStd 0) { live .frameHdr (fun t => { t with inPos := 14 }) with inp := mem 14 [0, 0], inLen := 16 }
      (fun t => errWord t == 0x302 && t.errPos == 14) = true := by decide

/-! ## One step: stream header and block headers -/

/-- 43_lzx_blocks.md R113. -/
theorem test_e8Off :
    after .e8Off (live .streamHdr fun t => { t with headerRead := false })
      (fun t => t.sess.headerRead && !t.e8Present && t.sess.ds == .blockHdr) = true := by decide

/-- 43_lzx_blocks.md R114, Example: the high half first. -/
theorem test_e8On :
    after .e8On (live .streamHdr fun t => { t with rdQ := bits (field 16 0x0001 ++ field 16 0x2345) })
      (fun t => t.e8FileSize == 0x00012345 && t.e8Present && t.sess.rdQ == []) = true := by decide

/-- A block length of 0x010203: 16 bits, then 8 (43_lzx_blocks.md R115). -/
def lengthBits : List QBit := bits (field 16 0x0102 ++ field 8 0x03)

theorem test_blkVerbatim :
    after .blkVerbatim (live .blockHdr fun t => { t with rdQ := lengthBits })
      (fun t => awaited t == .pretree ⟨1, 0x010203⟩ .mainLow) = true := by decide

theorem test_blkAligned :
    after .blkAligned (live .blockHdr fun t => { t with rdQ := lengthBits })
      (fun t => awaited t == .alignedLens ⟨2, 0x010203⟩) = true := by decide

theorem test_blkUncomp :
    after .blkUncomp (live .blockHdr fun t => { t with rdQ := lengthBits })
      (fun t => awaited t == .uncompAlignR ⟨3, 0x010203⟩) = true := by decide

/-- V-BLK-2 of 95_test_vectors.md: block type 7. -/
theorem test_blkInvalid :
    after (.blkInvalid 7) (live .blockHdr fun t => { t with rdQ := lengthBits, fhdrPos := 14 })
      (fun t => errWord t == 0x00000704 && t.errPos == 14 && t.sess.blockType == 0) = true := by decide

/-- 43_lzx_blocks.md R119, Example: P3's R words, behind a 4-bit pad. -/
theorem test_uncompAlignR :
    after .uncompAlignR { waiting .blockHdr (.uncompAlignR ⟨3, 5⟩)
        (fun t => { t with rdC := 4, rdQ := bits [false, false, false, false], frameLen := 40 }) with
        inp := mem 4 [5, 0, 0, 0, 4, 0, 0, 0, 1, 0, 0, 0, 0x48], inLen := 40 }
      (fun t => Session.regs t.sess == (5, 4, 1) && t.sess.ds == .decUncomp && t.sess.blockRem == 5
        && t.sess.rdC == 16) = true := by decide

/-- 41_bit_reader.md R98: on a word boundary a whole word is dropped. -/
theorem test_align16_boundary :
    (align16 { live .blockHdr (fun t => { t with rdC := 4, frameLen := 40 }) with
        inp := mem 4 [1, 2], inLen := 40 }).sess.rdC = 6 := by decide

/-! ## One step: tree descriptions -/

/-- 43_lzx_blocks.md R121, Example. -/
theorem test_alignedLens :
    after .alignedLens (waiting .blockHdr (.alignedLens ⟨2, 4⟩)
        fun t => { t with rdQ := bits ((List.replicate 8 (field 3 3)).flatten) })
      (fun t => t.sess.alLen == [3, 3, 3, 3, 3, 3, 3, 3] && awaited t == .pretree ⟨2, 4⟩ .mainLow) = true := by decide

/-- P4's aligned tree, cut short of completeness: ALIGNED_INVALID (60_exceptions.md R171). -/
theorem test_alignedLens_invalid :
    after .alignedLens (waiting .blockHdr (.alignedLens ⟨2, 4⟩)
        fun t => { t with rdQ := bits (field 24 0b001000000000000000000000) })
      (fun t => errWord t == 0x403) = true := by decide

/-- 43_lzx_blocks.md R124, Example. -/
theorem test_pretree :
    after .pretree (waiting .blockHdr (.pretree ⟨1, 4⟩ .mainHigh)
        fun t => { t with rdQ := bits (field 4 2 ++ List.replicate 60 false ++ field 16 0x2220) })
      (fun t => t.sess.preLen == [2, 0, 0, 0, 0, 0, 0, 0, 0, 0, 0, 0, 0, 0, 0, 0, 2, 2, 2, 0]
        && awaited t == .preSym ⟨1, 4⟩ .mainHigh 256) = true := by decide

/-- 43_lzx_blocks.md R125, Example and Corner cases: old 0, symbol 16 gives 1; old 5, symbol 6 gives 16. -/
theorem test_preDelta :
    after (.preDelta 16) (waiting .blockHdr (.preSym ⟨1, 4⟩ .mainLow 1) fun t => { t with mainLen := [3, 0, 3] })
      (fun t => t.sess.mainLen == [3, 1, 3] && awaited t == .preSym ⟨1, 4⟩ .mainLow 2) = true := by decide

theorem test_preDelta_wraps :
    after (.preDelta 6) (waiting .blockHdr (.preSym ⟨1, 4⟩ .lengths 0) fun t => { t with lenLen := [5, 9] })
      (fun t => t.sess.lenLen == [16, 9]) = true := by decide

/-- 43_lzx_blocks.md R126, Example: the footer 1010 zeroes 14 entries. -/
theorem test_preZeroShort :
    after .preZeroShort (waiting .blockHdr (.preSym ⟨1, 4⟩ .mainLow 1)
        fun t => { t with mainLen := List.replicate 20 7, rdQ := bits (field 4 0b1010) })
      (fun t => t.sess.mainLen == 7 :: List.replicate 14 0 ++ List.replicate 5 7
        && awaited t == .preSym ⟨1, 4⟩ .mainLow 15) = true := by decide

/-- A run that ends one entry past pass 1 faults (43_lzx_blocks.md R126). -/
theorem test_preZeroShort_overflow :
    after .preZeroShort (waiting .blockHdr (.preSym ⟨1, 4⟩ .mainLow 253)
        fun t => { t with rdQ := bits (field 4 0) })
      (fun t => errWord t == 0x503) = true := by decide

/-- 43_lzx_blocks.md R127, Example: the footer 11111 zeroes 51 entries. -/
theorem test_preZeroLong :
    after .preZeroLong (waiting .blockHdr (.preSym ⟨1, 4⟩ .lengths 0)
        fun t => { t with lenLen := List.replicate 53 7, rdQ := bits (field 5 0b11111) })
      (fun t => t.sess.lenLen == List.replicate 51 0 ++ [7, 7]
        && awaited t == .preSym ⟨1, 4⟩ .lengths 51) = true := by decide

/-- The pretree of 43_lzx_blocks.md R124's Example: 16 has the code 01. -/
def pretreeExample : List Nat := [2, 0, 0, 0, 0, 0, 0, 0, 0, 0, 0, 0, 0, 0, 0, 0, 2, 2, 2, 0]

/-- 43_lzx_blocks.md R128, Example: `PRE19 4, 16` over 0,7,7,7. -/
theorem test_preRepeat :
    after .preRepeat (waiting .blockHdr (.preSym ⟨1, 4⟩ .mainLow 0)
        fun t => { t with
          mainLen := [0, 7, 7, 7, 7], preLen := pretreeExample
          rdQ := bits ([false] ++ [false, true] ++ List.replicate 14 false) })
      (fun t => t.sess.mainLen == [1, 1, 1, 1, 7] && t.sess.rdQ.length == 14) = true := by decide

/-- 43_lzx_blocks.md R128: a repeated symbol of 17 is no length. -/
theorem test_preRepeat_symbol :
    after .preRepeat (waiting .blockHdr (.preSym ⟨1, 4⟩ .mainLow 0)
        fun t => { t with
          mainLen := [0, 7, 7, 7, 7], preLen := pretreeExample
          rdQ := bits ([false] ++ [true, false] ++ List.replicate 14 false) })
      (fun t => errWord t == 0x603 && t.sess.mainLen == [0, 7, 7, 7, 7]) = true := by decide

/-! ## One step: symbols -/

theorem test_mainLiteral :
    after (.mainLiteral 0x41) (live .decVerbatim fun t => { t with blockType := 1, blockRem := 4, produced := 3, wpos := 3 })
      (fun t => t.out == [(3, 0x41)] && t.sess.win == [(3, 0x41)] && t.sess.blockRem == 3 && t.sess.frameRem == 59
        && t.sess.ds == .decVerbatim) = true := by decide

/-- The last byte of a frame inside a block: the next frame header follows (45_frame_demux.md R149). -/
theorem test_mainLiteral_frameEnd :
    after (.mainLiteral 0x41) (live .decVerbatim fun t => { t with
        blockType := 1, blockRem := 4, frameRem := 1, frameBase := 19, frameLen := 50 })
      (fun t => t.sess.ds == .frameHdr && t.sess.inPos == 69 && t.sess.blockRem == 3) = true := by decide

/-- P3 of 95_test_vectors.md after its raw block: window "Hello", R = (5, 4, 1). -/
def hello : State :=
  live .decVerbatim fun t => { t with
    blockType := 1, blockRem := 9, frameRem := 9, produced := 5, wpos := 5, written := 5, r0 := 5, r1 := 4, r2 := 1
    win := mem 0 [0x48, 0x65, 0x6C, 0x6C, 0x6F] }

/-- P3: `MATCH len=5, slot=0` copies "Hello". -/
theorem test_matchR0 :
    after (.matchR0 3) hello
      (fun t => (outBytes 10 t).drop 5 == [some 0x48, some 0x65, some 0x6C, some 0x6C, some 0x6F]
        && Session.regs t.sess == (5, 4, 1) && t.sess.blockRem == 4) = true := by decide

/-- 44_lzx_symbols.md R136: slot 1 exchanges R0 and R1. -/
theorem test_matchR1 :
    after (.matchR1 0) hello
      (fun t => (outBytes 7 t).drop 5 == [some 0x65, some 0x6C] && Session.regs t.sess == (4, 5, 1)) = true := by decide

/-- 44_lzx_symbols.md R137, Example: offset 1 repeats the last byte; SWAP gives (1, 4, 5), ROTATE (1, 5, 4). -/
theorem test_matchR2_swap :
    after (.matchR2 1) hello
      (fun t => (outBytes 8 t).drop 5 == [some 0x6F, some 0x6F, some 0x6F]
        && Session.regs t.sess == (1, 4, 5)) = true := by decide

theorem test_matchR2_rotate :
    after (.matchR2 1) { hello with cfg := { Params.default with slot2Mode := .rotate } }
      (fun t => Session.regs t.sess == (1, 5, 4)) = true := by decide

/-- 44_lzx_symbols.md R138: slot 3 has offset 1 and no footer. -/
theorem test_matchS3 :
    after (.matchS3 0) hello
      (fun t => (outBytes 7 t).drop 5 == [some 0x6F, some 0x6F] && Session.regs t.sess == (1, 5, 4)) = true := by decide

/-- 44_lzx_symbols.md R138, Example: P2's `MATCH len=6, slot=4, extra=0` over "AB". -/
theorem test_matchS4 :
    after (.matchS4 4) (live .decVerbatim fun t => { t with
        blockType := 1, blockRem := 29, frameRem := 29, produced := 2, wpos := 2, written := 2
        win := mem 0 [0x41, 0x42], rdQ := bits [false] })
      (fun t => (outBytes 8 t).drop 2
          == [some 0x41, some 0x42, some 0x41, some 0x42, some 0x41, some 0x42]
        && Session.regs t.sess == (2, 1, 1)) = true := by decide

/-- 44_lzx_symbols.md R140: a match both too long and at offset 0 is MATCH_OVERRUN. -/
theorem test_matchR0_overrun :
    after (.matchR0 3) (live .decVerbatim fun t => { t with blockType := 1, blockRem := 4, r0 := 0 })
      (fun t => errWord t == 0x702) = true := by decide

/-- 44_lzx_symbols.md R134: length header 7 and the length symbol 2 give length 11. -/
theorem test_lenFooter :
    after .lenFooter (waiting .decVerbatim (.lenFooter 0) fun t => { t with
        blockType := 1, blockRem := 20, frameRem := 20, produced := 1, wpos := 1, written := 1
        win := mem 0 [0x41], lenLen := [0, 1, 1], rdQ := bits (true :: List.replicate 15 false) })
      (fun t => t.sess.produced == 12 && t.sess.rdQ.length == 15) = true := by decide

/-- 44_lzx_symbols.md R139, Example: P4's slot 8 with aligned symbol 2 gives the offset 16. -/
theorem test_alignedSym :
    after .alignedSym (waiting .decAligned (.alignedSym 8 2) fun t => { t with
        blockType := 2, blockRem := 20, frameRem := 20, produced := 16, wpos := 16, written := 16
        win := mem 0 (List.replicate 16 0x30), alLen := [1, 0, 1, 0, 0, 0, 0, 0]
        rdQ := bits (true :: List.replicate 15 false) })
      (fun t => Session.regs t.sess == (16, 1, 1) && t.sess.produced == 18) = true := by decide

/-- The last byte of an odd Uncompressed block awaits the pad (44_lzx_symbols.md R131): P3's, with its cursor. -/
theorem test_rawByte :
    after (.rawByte 0x6F) (live .decUncomp fun t => { t with blockType := 3, blockLen := 5, blockRem := 1, rdC := 21 })
      (fun t => t.out == [(0, 0x6F)] && awaited t == .oddPad && t.sess.blockRem == 0) = true := by decide

/-- Blocks split over frames pad by their whole length (44_lzx_symbols.md R131), and the next word is at an even cursor
(41_bit_reader.md R100): 5 bytes as 1 and 4 take a pad, 4 as 1 and 3 take none. -/
theorem test_rawByte_split :
    (after (.rawByte 0x6F) (live .decUncomp fun t => { t with blockType := 3, blockLen := 5, blockRem := 1, rdC := 4 })
        fun t => awaited t == .oddPad && t.sess.rdC == 4) = true
      ∧ (after (.rawByte 0x6F) (live .decUncomp fun t => { t with blockType := 3, blockLen := 4, blockRem := 1, rdC := 3 })
        fun t => t.sess.ds == .blockHdr && t.sess.rdC == 4 && t.pend == none) = true := by decide

theorem test_oddPad :
    after .oddPad (waiting .decUncomp .oddPad fun t => { t with blockType := 3, blockLen := 5, rdC := 21 })
      (fun t => t.sess.rdC == 22 && t.sess.ds == .blockHdr && t.pend == none) = true := by decide

/-! ## One step: host accesses -/

/-- V-HOST-1 and V-HOST-2 of 95_test_vectors.md. -/
theorem test_csrRead :
    ([(0x000, 0x4C5A5801), (0x03C, 0x00000210), (0x040, 0x00100000), (0x050, 0x00424E58), (0x008, 0), (0x02C, 1)].all
      fun c => after (.csrRead (BitVec.ofNat 12 c.1)) (idle [] 0)
        fun t => t.resp == .data (BitVec.ofNat 32 c.2)) = true := by decide

/-- V-HOST-11: a write to the read-only ERR is ignored. -/
theorem test_csrWrite :
    after (.csrWrite 0x00C 0xFF) (idle [] 0) (fun t => errWord t == 0 && t.resp == .ok && !t.busErr) = true := by decide

/-- V-HOST-5: one write of 0x5 enables the interrupt and starts. -/
theorem test_start :
    after (.start 5) { idle [] 69 with done := true, outLen := 4 }
      (fun t => t.busy && !t.done && t.irqEn && t.outLen == 0 && t.sess.ds == .container && t.inLen == 69
        && statusWord t == 0x101) = true := by decide

/-- V-HOST-6: a START while BUSY is refused and recorded. -/
theorem test_start_busy :
    after (.start 1) (live .blockHdr id) (fun t => t.cmdIgnored && t.sess.ds == .blockHdr && t.busy) = true := by decide

/-- V-HOST-9: SOFT_RESET wins over START. -/
theorem test_softReset :
    after (.softReset 3) { live .blockHdr id with irqEn := true, inLen := 5, inp := [(0, 1)] }
      (fun t => statusWord t == 0 && t.inLen == 0 && !t.irqEn && t.inp == [(0, 1)]) = true := by decide

/-- V-HOST-14. -/
theorem test_irqEn :
    after (.irqEn 4) { idle [] 0 with done := true } (fun t => irq t) = true := by decide

/-- V-HOST-8. -/
theorem test_w1c :
    after (.w1c 0x22) { idle [] 0 with done := true, cmdIgnored := true, irqEn := true, outLen := 4 }
      (fun t => !t.done && !t.cmdIgnored && !irq t && t.outLen == 4) = true := by decide

/-- V-HOST-4. -/
theorem test_inLen :
    after (.inLen 0xFFFFFFFF) (idle [] 0) (fun t => t.inLen == 0x00100000) = true := by decide

/-- V-HOST-3 and 46_host_interface.md R161, Example. -/
theorem test_inWrite :
    after (.inWrite 0 .b32 0x77424E58) (idle [] 0) (fun t => t.inp == mem 0 [0x58, 0x4E, 0x42, 0x77]) = true := by decide

theorem test_inRead :
    after (.inRead 1 .b8) (idle (mem 0 [0x58, 0x4E, 0x42, 0x77]) 0) (fun t => t.resp == .data 0x4E) = true := by decide

/-- A 32-bit read that straddles OUT_LEN (46_host_interface.md R163). -/
theorem test_outRead :
    after (.outRead 4 .b32) { idle [] 0 with out := mem 4 [0x41, 0x42, 0x43, 0x44], outLen := 6 }
      (fun t => t.resp == .data 0x00004241) = true := by decide

/-- V-HOST-7 and V-HOST-10: bus errors. -/
theorem test_inRead_busy :
    after (.inRead 0 .b8) (live .blockHdr id) (fun t => t.resp == .error && t.busErr) = true := by decide

theorem test_outWrite :
    after (.outWrite 0 .b32 1) (idle [] 0) (fun t => t.resp == .error && t.busErr && t.out == []) = true := by decide

theorem test_busError :
    after (.busError (.read 0x00300000 .b32)) (idle [] 0) (fun t => t.resp == .error && t.busErr) = true := by decide

/-- The placed word is fetched and run: the first step after `withFetchWord` reads ID. -/
theorem test_withFetchWord :
    (match step (State.reset.withFetchWord 32 0x00000000) with
      | .next t => t.resp == .data 0x4C5A5801
      | _ => false) = true := by decide

/-! ## Witnesses: for every obligation with hypotheses, states and operands that meet them all, clause by clause -/

theorem witness_DecodeEncode :
    ∃ (p : Params) (i : Instr), i.wellFormed p = true ∧ i = .matchS30 7 :=
  ⟨Params.default, _, by decide, rfl⟩

theorem witness_DecodedWords :
    (∃ (p : Params) (w : Fetched) (i : Instr), (∀ m, w = .mainSym m → m.toNat < p.mainElements)
        ∧ (∀ v, w = .container v → v.extractLsb' 24 24 ≠ p.magicWord → v.extractLsb' 0 24 = 0) ∧ decode p w = .ok i
        ∧ i = .contBadmagic 0x414243)
      ∧ ∃ (p : Params) (w : Fetched) (i : Instr), (∀ m, w = .mainSym m → m.toNat < p.mainElements)
        ∧ (∀ v, w = .container v → v.extractLsb' 24 24 ≠ p.magicWord → v.extractLsb' 0 24 = 0) ∧ decode p w = .ok i
        ∧ i = .matchS31 7 :=
  ⟨⟨Params.default, .container 0x414243000000, _, nofun, by rintro v ⟨⟩; decide, rfl, by decide⟩,
    Params.default, .mainSym 511, _, by rintro m ⟨⟩; decide, nofun, rfl, by decide⟩

/-- A raw byte of an Uncompressed block is the next element; one window cell is written. -/
def rawState : State :=
  { live .decUncomp (fun t => { t with
      blockType := 3, blockLen := 5, blockRem := 3, frameLen := 10, rdC := 4
      win := [(0, 0x41)], wpos := 1, written := 1, produced := 1 }) with
    inp := mem 4 [0x48, 0x65], inLen := 10, out := [(0, 0x41)] }

/-- A session whose container is next and whose file is empty. -/
def emptyFile : State :=
  let s := State.resetOf Params.default
  { s with busy := true, sess := freshSession Params.default }

theorem witness_StepRunsDecoded :
    (∃ (s s' : State) (w : Fetched) (i : Instr), s.cfg.valid = true ∧ fetch s = .element w s' ∧ decode s'.cfg w = .ok i
        ∧ i.wellFormed s'.cfg = true ∧ i = .rawByte 0x48)
      ∧ ∃ (s s' : State) (w : Fetched) (i : Instr), s.cfg.valid = true ∧ fetch s = .element w s' ∧ decode s'.cfg w = .ok i
        ∧ i.wellFormed s'.cfg = true ∧ s.pend ≠ none ∧ i = .oddPad :=
  ⟨⟨rawState, _, _, _, by decide, rfl, rfl, by decide, rfl⟩,
    waiting .decUncomp .oddPad id, _, _, _, by decide, rfl, rfl, by decide, nofun, rfl⟩

theorem legal_rawState : legal rawState = true := by decide +kernel
theorem legal_emptyFile : legal emptyFile = true := by decide +kernel

theorem witness_StepKeepsLegal : ∃ s t, legal s = true ∧ step s = .next t ∧ s.busy = true :=
  ⟨rawState, _, legal_rawState, rfl, rfl⟩

theorem witness_LegalStepAnswersNext : ∃ s, legal s = true ∧ s.busy = true := ⟨rawState, legal_rawState, rfl⟩

theorem witness_HistoryKept :
    ∃ s t, legal s = true ∧ historyOk s ∧ step s = .next t ∧ s.sess.written = 1 :=
  ⟨rawState, _, legal_rawState, ⟨⟨by decide, by decide, by
    intro j h
    have : j = 0 := by simpa [rawState, live] using h
    subst this; decide⟩, nofun⟩, rfl, rfl⟩

theorem witness_SessionEnds : ∃ s, legal s = true ∧ s.sched = [] ∧ s.busy = true :=
  ⟨rawState, legal_rawState, rfl, rfl⟩

theorem witness_ResetLegal : ∃ p : Params, p.valid = true ∧ p.windowBits = 18 :=
  ⟨{ Params.default with windowBits := 18 }, by decide, rfl⟩

/-- With no turn given, with an engine turn taken off, and inside a step with the schedule kept. -/
theorem witness_FaultEntry :
    (∃ s t, step s = .next t ∧ s.failed = false ∧ t.failed = true ∧ s.sched = [])
      ∧ (∃ s t, step s = .next t ∧ s.failed = false ∧ t.failed = true ∧ s.pend = none
        ∧ s.sched = [.engine, .rst] ∧ t.sched = [.rst])
      ∧ ∃ s t, step s = .next t ∧ s.failed = false ∧ t.failed = true ∧ s.pend ≠ none ∧ s.sched = [.engine]
        ∧ t.sched = [.engine] :=
  ⟨⟨emptyFile, _, rfl, rfl, rfl, rfl⟩, ⟨{ emptyFile with sched := [.engine, .rst] }, _, rfl, rfl, rfl, rfl, rfl, rfl⟩,
    { waiting .blockHdr (.uncompAlignR ⟨3, 0⟩) id with sched := [.engine] }, _, rfl, rfl, rfl, nofun, rfl, rfl⟩

theorem witness_FaultsByState :
    ∃ s t, legal s = true ∧ step s = .next t ∧ s.failed = false ∧ t.failed = true :=
  ⟨emptyFile, _, legal_emptyFile, rfl, rfl, rfl⟩

/-- Every clause, with the step of R81's table that fetches it. -/
theorem witness_FetchSelects_states :
    (∃ s : State, s.busy = true ∧ s.pend = none ∧ s.sched = [] ∧ s.sess.ds = .rawCopy)
      ∧ (∃ s : State, s.busy = true ∧ s.pend = none ∧ s.sched = [] ∧ s.sess.ds = .frameHdr
        ∧ s.sess.produced ≠ s.sess.decSize ∧ s.sess.inPos + 2 ≤ s.inLen)
      ∧ (∃ s v t, State.busy s = true ∧ s.pend = none ∧ s.sched = [] ∧ s.sess.ds = .streamHdr
        ∧ readBits 1 (begin s) = .ok v t)
      ∧ (∃ s v t, State.busy s = true ∧ s.pend = none ∧ s.sched = [] ∧ s.sess.ds = .blockHdr
        ∧ readBits 3 (begin s) = .ok v t)
      ∧ (∃ s m t, State.busy s = true ∧ s.pend = none ∧ s.sched = [] ∧ s.sess.ds = .decVerbatim
        ∧ decodeSymbol .main (begin s) = .ok m t)
      ∧ (∃ s m t, State.busy s = true ∧ s.pend = none ∧ s.sched = [] ∧ s.sess.ds = .decAligned
        ∧ decodeSymbol .main (begin s) = .ok m t)
      ∧ ∃ s b t, State.busy s = true ∧ s.pend = none ∧ s.sched = [] ∧ s.sess.ds = .decUncomp
        ∧ readByte (begin s) = .ok b t :=
  ⟨⟨live .rawCopy id, rfl, rfl, rfl, rfl⟩,
    ⟨{ live .frameHdr (fun t => { t with inPos := 14 }) with inLen := 16 }, rfl, rfl, rfl, rfl, by decide, by decide⟩,
    ⟨live .streamHdr fun t => { t with rdQ := bits [true] }, _, _, rfl, rfl, rfl, rfl, rfl⟩,
    ⟨live .blockHdr fun t => { t with rdQ := bits (field 3 7) }, _, _, rfl, rfl, rfl, rfl, rfl⟩,
    ⟨live .decVerbatim fun t => { t with mainLen := [1, 1], rdQ := bits (field 16 0x8000) },
      1, _, rfl, rfl, rfl, rfl, rfl⟩,
    ⟨live .decAligned fun t => { t with mainLen := [1, 1], rdQ := bits (field 16 0x7FFF) },
      0, _, rfl, rfl, rfl, rfl, rfl⟩,
    rawState, _, _, rfl, rfl, rfl, rfl, rfl⟩

/-- Every state in which the selector cannot be read: the frame header one byte short, no bit left, the last bit of a
field or a code beyond the data, an empty tree, no byte left. -/
theorem witness_FetchSelects_faults :
    let turn (s : State) := s.cfg.valid = true ∧ s.busy = true ∧ s.pend = none ∧ s.sched = []
    (∃ s, turn s ∧ s.sess.ds = .frameHdr ∧ s.sess.produced ≠ s.sess.decSize ∧ s.inLen < s.sess.inPos + 2
        ∧ s.inLen = s.sess.inPos + 1)
      ∧ (∃ s e d, turn s ∧ s.sess.ds = .streamHdr ∧ readBits 1 (begin s) = .raise e d)
      ∧ (∃ s e d, turn s ∧ s.sess.ds = .blockHdr ∧ readBits 3 (begin s) = .raise e d ∧ s.sess.rdQ.length = 2)
      ∧ (∃ s, turn s ∧ s.sess.ds = .decVerbatim ∧ kraft s.sess.mainLen = 0)
      ∧ (∃ s e d, turn s ∧ s.sess.ds = .decAligned ∧ kraft s.sess.mainLen ≠ 0
        ∧ decodeSymbol .main (begin s) = .raise e d)
      ∧ ∃ s, turn s ∧ s.sess.ds = .decUncomp ∧ s.sess.frameLen ≤ s.sess.rdC ∧ s.sess.frameLen = s.sess.rdC :=
  ⟨⟨{ live .frameHdr (fun t => { t with inPos := 14 }) with inLen := 15 }, by decide, rfl, by decide, by decide, rfl⟩,
    ⟨live .streamHdr id, _, _, by decide, rfl, rfl⟩,
    ⟨live .blockHdr fun t => { t with rdQ := bits [true, true] }, _, _, by decide, rfl, rfl, rfl⟩,
    ⟨live .decVerbatim fun t => { t with mainLen := [0, 0] }, by decide, rfl, by decide⟩,
    ⟨live .decAligned fun t => { t with mainLen := [1, 1] }, .bitsExhausted, 0, by decide, rfl, by decide, rfl⟩,
    live .decUncomp fun t => { t with frameLen := 5, rdC := 5 }, by decide, rfl, by decide, rfl⟩

theorem witness_FetchSelects_pretree :
    (∃ (s : State) (b : Session) (h : BlockHdr) (p : Pass) (x : Nat), s.cfg.valid = true
        ∧ s.pend = some ⟨b, .preSym h p x⟩ ∧ kraft s.sess.preLen = 0)
      ∧ ∃ (s : State) (b : Session) (h : BlockHdr) (p : Pass) (x : Nat) (e : SessionError) (d : Nat),
        s.cfg.valid = true ∧ s.pend = some ⟨b, .preSym h p x⟩ ∧ kraft s.sess.preLen ≠ 0
        ∧ decodeSymbol .pre s = .raise e d ∧ e = .bitsExhausted :=
  ⟨⟨waiting .blockHdr (.preSym ⟨1, 4⟩ .mainLow 0) (fun t => { t with preLen := [0] }), _, _, _, _, by decide, rfl,
      by decide⟩,
    waiting .blockHdr (.preSym ⟨1, 4⟩ .mainLow 0) (fun t => { t with preLen := [1, 1] }), _, _, _, _,
    .bitsExhausted, 0, by decide, rfl, by decide, rfl, rfl⟩

theorem witness_FetchSelects_contexts :
    (∃ (s : State) (b : Session) (h : BlockHdr), s.pend = some ⟨b, .alignedLens h⟩)
      ∧ (∃ (s : State) (b : Session) (h : BlockHdr) (p : Pass), s.pend = some ⟨b, .pretree h p⟩)
      ∧ (∃ (s t : State) (b : Session) (h : BlockHdr) (p : Pass) (x z : Nat), s.pend = some ⟨b, .preSym h p x⟩
        ∧ decodeSymbol .pre s = .ok z t ∧ z = 16)
      ∧ (∃ (s : State) (b : Session) (slot : Nat), s.pend = some ⟨b, .lenFooter slot⟩)
      ∧ (∃ (s : State) (b : Session) (slot len : Nat), s.pend = some ⟨b, .alignedSym slot len⟩)
      ∧ (∃ (s : State) (b : Session) (h : BlockHdr), s.pend = some ⟨b, .uncompAlignR h⟩)
      ∧ ∃ (s : State) (b : Session), s.pend = some ⟨b, .oddPad⟩ :=
  ⟨⟨waiting .blockHdr (.alignedLens ⟨2, 4⟩) id, _, _, rfl⟩,
    ⟨waiting .blockHdr (.pretree ⟨1, 4⟩ .lengths) id, _, _, _, rfl⟩,
    ⟨waiting .blockHdr (.preSym ⟨1, 4⟩ .mainLow 0) (fun t => { t with
        preLen := pretreeExample, rdQ := bits (field 16 0x4000) }), _, _, _, _, _, 16, rfl, rfl, rfl⟩,
    ⟨waiting .decVerbatim (.lenFooter 35) id, _, _, rfl⟩,
    ⟨waiting .decAligned (.alignedSym 8 2) id, _, _, _, rfl⟩,
    ⟨waiting .blockHdr (.uncompAlignR ⟨3, 0⟩) id, _, _, rfl⟩,
    waiting .decUncomp .oddPad id, _, rfl⟩

theorem witness_ResetState :
    (∃ o : Nat, o ∉ [0x000, 0x02C, 0x030, 0x034, 0x03C, 0x040, 0x044, 0x050] ∧ o = 0x04C)
      ∧ ∃ (s : State) (rest : List Turn), s.cfg.valid = true ∧ s.pend = none ∧ s.sched = .rst :: rest
        ∧ s.busy = true :=
  ⟨⟨_, by decide, rfl⟩, { live .blockHdr id with sched := [.rst, .engine] }, _, by decide, rfl, rfl, rfl⟩

theorem witness_CsrReadResult :
    (∃ o : BitVec 12, o.toNat % 4 = 0 ∧ o = 0x050) ∧ ∃ o : BitVec 12, o.toNat % 4 ≠ 0 ∧ o = 0x051 :=
  ⟨⟨_, by decide, rfl⟩, _, by decide, rfl⟩

theorem witness_ReservedCsrs :
    (∃ o : BitVec 12, o.toNat % 4 = 0 ∧ 0x050 < o.toNat ∧ o = 0x054)
      ∧ (∃ o : BitVec 12, o.toNat % 4 = 0 ∧ o.toNat ≠ 0x004 ∧ o.toNat ≠ 0x008 ∧ o.toNat ≠ 0x014 ∧ o = 0xFFC)
      ∧ (∃ v w : Word, v.extractLsb' 0 3 = w.extractLsb' 0 3 ∧ v ≠ w)
      ∧ ∃ v w : Word, v.getLsbD 1 = w.getLsbD 1 ∧ v.getLsbD 2 = w.getLsbD 2 ∧ v.getLsbD 5 = w.getLsbD 5
        ∧ v ≠ w :=
  ⟨⟨_, by decide, by decide, rfl⟩, ⟨_, by decide, by decide, by decide, by decide, rfl⟩,
    ⟨0x00000005, 0xFFFFFFFD, by decide, by decide⟩,
    0x00000022, 0xFFFFFFFB, by decide, by decide, by decide, by decide⟩

theorem witness_StartResult :
    (∃ (v : Word) (s : State), v.getLsbD 0 = true ∧ v.getLsbD 1 = false ∧ s.busy = false ∧ s.done = true)
      ∧ ∃ (v : Word) (s : State), v.getLsbD 0 = true ∧ v.getLsbD 1 = false ∧ s.busy = true :=
  ⟨⟨5, { idle [] 69 with done := true }, by decide, by decide, rfl, rfl⟩,
    1, live .blockHdr id, by decide, by decide, rfl⟩

theorem witness_SoftResetResult : ∃ v : Word, v.getLsbD 1 = true ∧ v.getLsbD 0 = true :=
  ⟨3, by decide, by decide⟩

theorem witness_IrqEnResult :
    (∃ v : Word, v.getLsbD 1 = false ∧ v.getLsbD 0 = false ∧ v.getLsbD 2 = true)
      ∧ ∃ v : Word, v.getLsbD 1 = false ∧ v.getLsbD 0 = true ∧ v.getLsbD 2 = true :=
  ⟨⟨4, by decide, by decide, by decide⟩, 5, by decide, by decide, by decide⟩

theorem witness_W1cResult : ∃ v : Word, v.getLsbD 1 = true ∧ v.getLsbD 2 = true := ⟨6, by decide, by decide⟩

theorem witness_InLenResult : (∃ s : State, s.busy = false) ∧ ∃ s : State, s.busy = true :=
  ⟨⟨idle [] 0, rfl⟩, live .blockHdr id, rfl⟩

/-- Admitted: the last byte and the last word below the cap. Not admitted: one byte beyond it, a 16-bit access, a
misaligned word, an access while BUSY. -/
theorem witness_InWriteResult_InReadResult :
    (∃ (s : State) (a : BitVec 20), inAdmitted s a.toNat .b8 ∧ a.toNat = s.cfg.inCap - 1)
      ∧ (∃ (s : State) (a : BitVec 20), inAdmitted s a.toNat .b32 ∧ a.toNat = s.cfg.inCap - 4
        ∧ unwritten s.inp a.toNat 4 = 4)
      ∧ (∃ (s : State) (a : BitVec 20), ¬ inAdmitted s a.toNat .b8 ∧ a.toNat = s.cfg.inCap)
      ∧ (∃ (s : State) (a : BitVec 20), ¬ inAdmitted s a.toNat .b16)
      ∧ (∃ (s : State) (a : BitVec 20), ¬ inAdmitted s a.toNat .b32 ∧ a.toNat = 2)
      ∧ ∃ (s : State) (a : BitVec 20), ¬ inAdmitted s a.toNat .b8 ∧ s.busy = true := by
  refine ⟨⟨idle [] 0, 0xFFFFF, ?_, rfl⟩, ⟨idle [] 0, 0xFFFFC, ?_, rfl, by decide⟩,
    ⟨{ idle [] 0 with cfg := { Params.default with inCap := 14 } }, 14, ?_, rfl⟩, ⟨idle [] 0, 0, ?_⟩,
    ⟨idle [] 0, 2, ?_, rfl⟩, live .blockHdr id, 0, ?_, rfl⟩ <;> unfold inAdmitted <;> decide

theorem witness_OutReadResult :
    (∃ (s : State) (a : BitVec 20), outAdmitted s a.toNat .b32 ∧ s.outLen = a.toNat + 2
        ∧ s.out.get? (a.toNat + 1) = some 0x42)
      ∧ (∃ (s : State) (a : BitVec 20), outAdmitted s a.toNat .b8 ∧ a.toNat = s.cfg.outCap - 1)
      ∧ (∃ (s : State) (a : BitVec 20), ¬ outAdmitted s a.toNat .b8 ∧ a.toNat = s.cfg.outCap)
      ∧ (∃ (s : State) (a : BitVec 20), ¬ outAdmitted s a.toNat .b16)
      ∧ (∃ (s : State) (a : BitVec 20), ¬ outAdmitted s a.toNat .b32 ∧ a.toNat = 2)
      ∧ ∃ (s : State) (a : BitVec 20), ¬ outAdmitted s a.toNat .b8 ∧ s.busy = true := by
  refine ⟨⟨{ idle [] 0 with out := mem 4 [0x41, 0x42, 0x43, 0x44], outLen := 6 }, 4, ?_, rfl, rfl⟩,
    ⟨idle [] 0, 0xFFFFF, ?_, rfl⟩, ⟨{ idle [] 0 with cfg := { Params.default with outCap := 0 } }, 0, ?_, rfl⟩,
    ⟨idle [] 0, 0, ?_⟩, ⟨idle [] 0, 2, ?_, rfl⟩, live .blockHdr id, 0, ?_, rfl⟩ <;> unfold outAdmitted <;> decide

theorem witness_AperturesClosed : ∃ s : State, s.busy = true := ⟨live .rawCopy id, rfl⟩

theorem witness_OutWriteRefused :
    ∃ (i : Instr) (s t : State), isHost i = true ∧ exec i s = .next t ∧ s.out.get? 4 = some 0x41 :=
  ⟨.inWrite 0 .b8 7, { idle [] 0 with out := mem 4 [0x41] }, _, rfl, rfl, rfl⟩

theorem witness_BusErrorResult :
    (∃ acc : Access, acc.placed = false ∧ acc = .write 0x00100002 .b32 0)
      ∧ (∃ acc : Access, acc.placed = false ∧ acc = .read 0x00000FFF .b8)
      ∧ (∃ acc : Access, acc.placed = false ∧ acc = .read 0x00300000 .b32)
      ∧ ∃ s t : State, s.busErr = true ∧ step s = .next t ∧ s.sched ≠ [] :=
  ⟨⟨_, by decide, rfl⟩, ⟨_, by decide, rfl⟩, ⟨_, by decide, rfl⟩,
    { idle [] 0 with busErr := true, sched := [.host (.write 0x00000004 .b32 2)] }, _, rfl, rfl, nofun⟩

theorem witness_HostKeepsSession :
    ∃ (i : Instr) (s t : State), isHost i = true ∧ i.wellFormed s.cfg = true ∧ (∀ v, i ≠ .start v)
      ∧ (∀ v, i ≠ .softReset v) ∧ exec i s = .next t ∧ s.busy = true :=
  ⟨.w1c 0x20, live .blockHdr id, _, rfl, rfl, nofun, nofun, rfl, rfl⟩

theorem witness_EngineKeepsHostSide :
    ∃ (i : Instr) (s t : State), isHost i = false ∧ exec i s = .next t ∧ t.sess.ds = .decVerbatim :=
  ⟨.matchR0 3, hello, _, rfl, rfl, rfl⟩

theorem witness_StepSeenWhole :
    ∃ (i : Instr) (s t : State), isHost i = false ∧ exec i s = .next t ∧ t.pend ≠ none ∧ t.sess.rdQ ≠ s.sess.rdQ :=
  ⟨.blkVerbatim, live .blockHdr (fun t => { t with rdQ := lengthBits }), _, rfl, rfl, nofun, nofun⟩

theorem witness_HostTurns :
    (∃ s t : State, s.pend ≠ none ∧ step s = .next t ∧ s.sched = [.host (.read 0 .b32)])
      ∧ ∃ (s : State) (a : Access) (rest : List Turn), s.cfg.valid = true ∧ s.pend = none
        ∧ s.sched = .host a :: rest ∧ s.busy = true :=
  ⟨⟨{ waiting .decUncomp .oddPad id with sched := [.host (.read 0 .b32)] }, _, nofun, rfl, rfl⟩,
    { live .blockHdr id with sched := [.host (.read 0x00300000 .b16)] }, _, _, by decide, rfl, rfl, rfl⟩

theorem witness_TurnsWithoutElement :
    (∃ s : State, s.cfg.valid = true ∧ s.pend = none ∧ s.busy = false ∧ s.sched = [])
      ∧ (∃ (s : State) (rest : List Turn), s.cfg.valid = true ∧ s.pend = none ∧ s.busy = false
        ∧ s.sched = .engine :: rest)
      ∧ ∃ s : State, s.cfg.valid = true ∧ s.pend = none ∧ s.busy = true ∧ s.sched = [] ∧ s.sess.ds = .frameHdr
        ∧ s.sess.produced = s.sess.decSize :=
  ⟨⟨State.reset, by decide, rfl, rfl, rfl⟩, ⟨{ State.reset with sched := [.engine] }, _, by decide, rfl, rfl, rfl⟩,
    live .frameHdr (fun t => { t with produced := 100 }), by decide, rfl, rfl, rfl, rfl, rfl⟩

/-- 40_container.md R88 and R90, Example: an uncompressed container of the payload ABCD. -/
def rawFile : Memory := mem 0 [0x58, 0x4E, 0x42, 0x77, 0x05, 0x00, 0x0E, 0, 0, 0, 0x41, 0x42, 0x43, 0x44]

/-- Another instance with the same launch. -/
def otherHost : State := { idle (rawFile ++ [(14, 7)]) 14 with out := [(9, 9)], cmdIgnored := true }

theorem witness_SameLaunchSameRun :
    ∃ (k : Nat) (s t s0 t0 s' : State), s.busy = false ∧ t.busy = false ∧ s.sched = [] ∧ t.sched = []
      ∧ t.cfg = s.cfg ∧ t.inLen = s.inLen
      ∧ (∀ a, a < s.inLen → (s.inp.get? a).isSome = true ∧ t.inp.get? a = s.inp.get? a)
      ∧ exec (.start 1) s = .next s0 ∧ exec (.start 1) t = .next t0 ∧ runSteps k s0 = .next s'
      ∧ k = 2 ∧ s ≠ t ∧ s'.done = true := by
  refine ⟨2, idle rawFile 14, otherHost, (startSession (idle rawFile 14)).respond .ok, _, _,
    rfl, rfl, rfl, rfl, rfl, rfl, ?_, rfl, rfl, rfl, rfl, ?_, rfl⟩
  · intro a h
    replace h : a < 14 := h
    interval_cases a <;> exact ⟨rfl, rfl⟩
  · exact fun h => absurd (congrArg State.cmdIgnored h) (by decide)

/-! ### The bit reader, the trees -/

theorem witness_ReadWordBits :
    (∃ (s : State) (n : Nat) (lo hi : Byte), s.sess.rdQ = [] ∧ 1 ≤ n ∧ n ≤ 16 ∧ s.sess.rdC + 1 < s.sess.frameLen
        ∧ s.inp.get? (s.sess.frameBase + s.sess.rdC + 1) = some hi
        ∧ s.inp.get? (s.sess.frameBase + s.sess.rdC) = some lo ∧ n = 16 ∧ lo = 0x34)
      ∧ (∃ (s : State) (n : Nat) (lo : Byte), s.sess.rdQ = [] ∧ 1 ≤ n ∧ n ≤ 16 ∧ s.sess.rdC + 1 = s.sess.frameLen
        ∧ s.inp.get? (s.sess.frameBase + s.sess.rdC) = some lo ∧ n = 16)
      ∧ (∃ (s : State) (n : Nat), s.sess.rdQ.length < n ∧ n ≤ 16 ∧ s.sess.frameLen ≤ s.sess.rdC
        ∧ s.sess.rdQ = [] ∧ n = 1 ∧ s.sess.frameLen = s.sess.rdC)
      ∧ (∃ (s : State) (n : Nat), s.sess.rdQ.length < n ∧ n ≤ 16 ∧ s.sess.frameLen ≤ s.sess.rdC
        ∧ s.sess.rdQ.length = 15 ∧ n = 16)
      ∧ (∃ (s : State) (n : Nat), n ≤ s.sess.rdQ.length ∧ (∀ b ∈ s.sess.rdQ.take n, b.real = true)
        ∧ n = 2 ∧ ∃ b ∈ s.sess.rdQ.drop n, b.real = false)
      ∧ ∃ (s : State) (n : Nat), n ≤ s.sess.rdQ.length ∧ (∃ b ∈ s.sess.rdQ.take n, b.real = false) ∧ n = 3 :=
  ⟨⟨{ live .blockHdr (fun t => { t with frameBase := 3, frameLen := 2 }) with inp := mem 3 [0x34, 0x12] },
      16, _, 0x12, rfl, by decide, by decide, by decide, rfl, rfl, rfl, rfl⟩,
    ⟨{ live .blockHdr (fun t => { t with frameBase := 3, frameLen := 3, rdC := 2 }) with inp := mem 5 [0x34] },
      16, _, rfl, by decide, by decide, rfl, rfl, rfl⟩,
    ⟨live .blockHdr (fun t => { t with frameLen := 2, rdC := 2 }), 1, by decide, by decide, by decide, rfl, rfl, rfl⟩,
    ⟨live .blockHdr (fun t => { t with frameLen := 2, rdC := 2, rdQ := bits (field 15 1) }), 16,
      by decide, by decide, by decide, rfl, rfl⟩,
    ⟨live .blockHdr (fun t => { t with rdQ := bits [true, false] ++ [⟨false, false⟩] }), 2,
      by decide, by decide, rfl, by decide⟩,
    live .blockHdr (fun t => { t with rdQ := bits [true, false] ++ [⟨false, false⟩] }), 3, by decide, by decide, rfl⟩

/-- Two fields across a word boundary, of 16 bits together. -/
theorem witness_ReadBitsSplit :
    ∃ (m n : Nat) (s s1 s2 : State) (v w : Nat), m + n ≤ 16 ∧ readBits m s = .ok v s1 ∧ readBits n s1 = .ok w s2
      ∧ m = 3 ∧ n = 13 ∧ s.sess.rdQ.length = 4 :=
  ⟨3, 13, { live .blockHdr (fun t => { t with rdQ := bits (field 4 9), rdC := 2, frameLen := 4 }) with
      inp := mem 2 [0x34, 0x12] }, _, _, _, _, by decide, rfl, rfl, rfl, rfl, rfl⟩

theorem witness_ReaderProgress :
    (∃ (n : Nat) (s t : State) (v : Nat), readBits n s = .ok v t ∧ n = 3)
      ∧ (∃ (s t : State) (b : Byte), readByte s = .ok b t)
      ∧ ∃ s : State, s.sess.rdQ.length ≤ 31 ∧ s.sess.rdQ.length ≤ 8 * s.sess.rdC ∧ s.sess.rdQ.length = 31 :=
  ⟨⟨3, live .blockHdr (fun t => { t with rdQ := bits (field 3 5) }), _, _, rfl, rfl⟩, ⟨rawState, _, _, rfl⟩,
    live .blockHdr (fun t => { t with rdQ := bits (List.replicate 31 true), rdC := 4 }), by decide, by decide, rfl⟩

theorem witness_CanonicalCode :
    ∃ (lens : List Nat) (v : Nat), (∀ l ∈ lens, l ≤ 16) ∧ kraft lens = 65536 ∧ v < 65536 ∧ v = 65535
      ∧ lens = pretreeExample := ⟨_, _, by decide, by decide, by decide, rfl, rfl⟩

theorem witness_DecodeSymbolResult :
    (∃ (tr : Tree) (s : State), (∀ l ∈ tr.lens s, l ≤ 16) ∧ kraft (tr.lens s) = 0)
      ∧ (∃ (tr : Tree) (s : State) (i : Nat), (∀ l ∈ tr.lens s, l ≤ 16) ∧ kraft (tr.lens s) = 65536
        ∧ inInterval (tr.lens s) i (bitsVal ((ensure 16 s).sess.rdQ.take 16))
        ∧ ((ensure 16 s).sess.rdQ.take ((tr.lens s).getD i 0)).all (·.real) = true ∧ i = 16)
      ∧ ∃ (tr : Tree) (s : State) (i : Nat), (∀ l ∈ tr.lens s, l ≤ 16) ∧ kraft (tr.lens s) = 65536
        ∧ inInterval (tr.lens s) i (bitsVal ((ensure 16 s).sess.rdQ.take 16))
        ∧ ((ensure 16 s).sess.rdQ.take ((tr.lens s).getD i 0)).all (·.real) = false ∧ i = 0 := by
  refine ⟨⟨.pre, live .blockHdr (fun t => { t with preLen := [0, 0] }), by decide, by decide⟩,
    ⟨.pre, live .blockHdr (fun t => { t with preLen := pretreeExample, rdQ := bits (field 16 0x7FFF) }), 16,
      by decide, by decide, ?_, by decide, rfl⟩,
    ⟨.pre, live .blockHdr (fun t => { t with preLen := pretreeExample, rdQ := bits [false] }), 0,
      by decide, by decide, ?_, by decide, rfl⟩⟩ <;> unfold inInterval <;> decide

theorem witness_KraftSum :
    (∃ (tr : Tree) (s : State), kraft (tr.lens s) = 65536) ∧ (∃ (tr : Tree) (s : State), kraft (tr.lens s) = 0)
      ∧ ∃ (tr : Tree) (s : State), kraft (tr.lens s) ≠ 65536 ∧ kraft (tr.lens s) ≠ 0 :=
  ⟨⟨.pre, live .blockHdr (fun t => { t with preLen := [1, 1] }), by decide⟩,
    ⟨.pre, live .blockHdr (fun t => { t with preLen := [0] }), by decide⟩,
    .pre, live .blockHdr (fun t => { t with preLen := [1, 1, 16] }), by decide, by decide⟩

/-! ### Containers and frames -/

/-- A container step over a file of these bytes. -/
def container (bs : List Byte) : State :=
  { emptyFile with inp := mem 0 bs, inLen := bs.length }

theorem witness_ContainerStep :
    let ready (s : State) := s.cfg.valid = true ∧ s.busy = true ∧ s.pend = none ∧ s.sched = []
      ∧ s.sess.ds = .container
    let magic (s : State) : BitVec 24 := (s.readIn 0).1 ++ ((s.readIn 0).2.readIn 1).1
      ++ (((s.readIn 0).2.readIn 1).2.readIn 2).1
    let flags (s : State) := (((((s.readIn 0).2.readIn 1).2.readIn 2).2.readIn 3).2.readIn 4).2.readIn 5
    (∃ s, ready s ∧ s.inLen < 3 ∧ s.inLen = 2)
      ∧ (∃ s, ready s ∧ 3 ≤ s.inLen ∧ magic s ≠ s.cfg.magicWord ∧ s.inLen = 3)
      ∧ (∃ s, ready s ∧ 3 ≤ s.inLen ∧ magic s = s.cfg.magicWord ∧ s.inLen < 10 ∧ s.inLen = 9)
      ∧ (∃ s, ready s ∧ magic s = s.cfg.magicWord ∧ 10 ≤ s.inLen ∧ (flags s).1.getLsbD 7 = false ∧ s.inLen = 10)
      ∧ ∃ s, ready s ∧ magic s = s.cfg.magicWord ∧ 10 ≤ s.inLen ∧ (flags s).1.getLsbD 7 = true ∧ s.inLen = 10 :=
  have h : ∀ bs, (container bs).cfg.valid = true ∧ (container bs).busy = true ∧ (container bs).pend = none
      ∧ (container bs).sched = [] ∧ (container bs).sess.ds = .container :=
    fun _ => ⟨rfl, rfl, rfl, rfl, rfl⟩
  ⟨⟨container [0x58, 0x4E], h _, by decide, rfl⟩,
    ⟨container [0x58, 0x4E, 0x43], h _, by decide, by decide, rfl⟩,
    ⟨container [0x58, 0x4E, 0x42, 0, 0, 0, 0, 0, 0], h _, by decide, by decide, by decide, rfl⟩,
    ⟨container [0x58, 0x4E, 0x42, 0, 0, 0x7F, 0, 0, 0, 0], h _, by decide, by decide, by decide, rfl⟩,
    container [0x58, 0x4E, 0x42, 0, 0, 0x80, 0, 0, 0, 0], h _, by decide, by decide, by decide, rfl⟩

/-- With the little-endian size at 10 equal to `OUT_CAP`, and one above it. -/
theorem witness_ContainerResults :
    (∃ s : State, s.cfg.outCap < s.inLen - 10) ∧ (∃ s : State, s.inLen - 10 ≤ s.cfg.outCap ∧ s.inLen = 10)
      ∧ (∃ s : State, s.inLen < 14)
      ∧ ∃ (s : State) (d : Word), 14 ≤ s.inLen
        ∧ (∀ k b, k < 4 → s.inp.get? (10 + k) = some b → d.extractLsb' (8 * k) 8 = b) ∧ d.toNat ≤ s.cfg.outCap :=
  ⟨⟨{ container [] with cfg := { Params.default with outCap := 3 }, inLen := 14 }, by decide⟩,
    ⟨{ container [] with inLen := 10 }, by decide, rfl⟩, ⟨{ container [] with inLen := 13 }, by decide⟩,
    { container [] with inLen := 14, inp := mem 10 [4, 0, 0, 0] }, 4, by decide,
    by intro k b hk; interval_cases k <;> (rintro ⟨⟩; decide), by decide⟩

/-- A frame header at 14 of these bytes, with more of the file behind it. -/
def frameAt (bs : List Byte) (len : Nat) (f : Session → Session) : State :=
  { live .frameHdr (fun t => f { t with inPos := 14, decSize := 40000 }) with inp := mem 14 bs, inLen := len }

/-- A block under way is resumed; the frame's data ends with the file. -/
theorem witness_FrameStarts :
    (∃ (h0 : Byte) (s : State), s.sess.inPos + 2 ≤ s.inLen
        ∧ (s.sess.headerRead = false ∨ s.sess.blockRem = 0 ∨ s.sess.blockType = 1 ∨ s.sess.blockType = 2
          ∨ s.sess.blockType = 3)
        ∧ h0.toNat * 256 + (s.readIn (s.sess.inPos + 1)).1.toNat ≠ 0 ∧ 32768 ≤ s.sess.decSize - s.sess.produced
        ∧ s.sess.inPos + 2 + (h0.toNat * 256 + (s.readIn (s.sess.inPos + 1)).1.toNat) ≤ s.inLen
        ∧ s.sess.headerRead = true ∧ s.sess.blockRem = 9)
      ∧ ∃ s : State, s.sess.inPos + 5 ≤ s.inLen
        ∧ (s.sess.headerRead = false ∨ s.sess.blockRem = 0 ∨ s.sess.blockType = 1 ∨ s.sess.blockType = 2
          ∨ s.sess.blockType = 3)
        ∧ (let f1 := s.readIn (s.sess.inPos + 1)
          let f2 := f1.2.readIn (s.sess.inPos + 2)
          let b1 := f2.2.readIn (s.sess.inPos + 3)
          let b2 := b1.2.readIn (s.sess.inPos + 4)
          b1.1.toNat * 256 + b2.1.toNat = 50 ∧ f1.1.toNat * 256 + f2.1.toNat = 4
            ∧ 4 ≤ s.sess.decSize - s.sess.produced ∧ s.sess.inPos + 5 + 50 ≤ s.inLen) :=
  ⟨⟨0, frameAt [0, 5] 21 (fun t => { t with blockType := 2, blockRem := 9 }), by decide, by decide, by decide,
      by decide, by decide, rfl, rfl⟩,
    frameAt [0xFF, 0, 4, 0, 50] 69 (fun t => { t with headerRead := false }), by decide, by decide, by decide⟩

theorem witness_FrameFaults_std :
    let bs (h0 : Byte) (s : State) := h0.toNat * 256 + (s.readIn (s.sess.inPos + 1)).1.toNat
    (∃ s : State, s.inLen < s.sess.inPos + 2 ∧ s.inLen = s.sess.inPos + 1)
      ∧ (∃ (h0 : Byte) (s : State), s.sess.inPos + 2 ≤ s.inLen ∧ bs h0 s = 0)
      ∧ (∃ (h0 : Byte) (s : State), s.sess.inPos + 2 ≤ s.inLen ∧ bs h0 s ≠ 0
        ∧ s.sess.decSize - s.sess.produced < 32768 ∧ s.sess.decSize - s.sess.produced = 32767)
      ∧ ∃ (h0 : Byte) (s : State), s.sess.inPos + 2 ≤ s.inLen ∧ bs h0 s ≠ 0
        ∧ 32768 ≤ s.sess.decSize - s.sess.produced ∧ s.inLen < s.sess.inPos + 2 + bs h0 s :=
  ⟨⟨frameAt [0] 15 id, by decide, rfl⟩, ⟨0, frameAt [0, 0] 16 id, by decide, by decide⟩,
    ⟨0, frameAt [0, 5] 21 (fun t => { t with decSize := 32767 }), by decide, by decide, by decide, rfl⟩,
    0, frameAt [0, 5] 20 id, by decide, by decide, by decide, by decide⟩

theorem witness_FrameFaults_ext :
    let f1 (s : State) := s.readIn (s.sess.inPos + 1)
    let f2 (s : State) := (f1 s).2.readIn (s.sess.inPos + 2)
    let b1 (s : State) := (f2 s).2.readIn (s.sess.inPos + 3)
    let b2 (s : State) := (b1 s).2.readIn (s.sess.inPos + 4)
    let fs (s : State) := (f1 s).1.toNat * 256 + (f2 s).1.toNat
    let bs (s : State) := (b1 s).1.toNat * 256 + (b2 s).1.toNat
    (∃ s : State, s.inLen < s.sess.inPos + 5 ∧ s.inLen = s.sess.inPos + 4)
      ∧ (∃ s : State, s.sess.inPos + 5 ≤ s.inLen ∧ (bs s = 0 ∨ fs s = 0) ∧ bs s ≠ 0)
      ∧ (∃ s : State, s.sess.inPos + 5 ≤ s.inLen ∧ bs s ≠ 0 ∧ fs s ≠ 0 ∧ s.sess.decSize - s.sess.produced < fs s)
      ∧ ∃ s : State, s.sess.inPos + 5 ≤ s.inLen ∧ bs s ≠ 0 ∧ fs s ≠ 0 ∧ fs s ≤ s.sess.decSize - s.sess.produced
        ∧ s.inLen < s.sess.inPos + 5 + bs s :=
  ⟨⟨frameAt [] 18 id, by decide, rfl⟩, ⟨frameAt [0xFF, 0, 0, 0, 1] 20 id, by decide, by decide, by decide⟩,
    ⟨frameAt [0xFF, 0, 5, 0, 1] 20 (fun t => { t with decSize := 4 }), by decide, by decide, by decide, by decide⟩,
    frameAt [0xFF, 0, 5, 0, 2] 20 id, by decide, by decide, by decide, by decide, by decide⟩

/-! ### Block headers and tree descriptions -/

/-- A block header step whose frame has `len` bytes of zeros left. -/
def zeros (len : Nat) : State :=
  { live .blockHdr (fun t => { t with frameLen := len }) with
    inp := mem 0 [0, 0, 0, 0], inLen := 4 }

theorem witness_StreamHeader :
    (∃ (s s1 s2 : State) (hi lo : Nat), readBits 16 (begin s) = .ok hi s1 ∧ readBits 16 s1 = .ok lo s2)
      ∧ (∃ (s : State) (e : SessionError) (d : Nat), readBits 16 (begin s) = .raise e d)
      ∧ ∃ (s s1 : State) (hi : Nat) (e : SessionError) (d : Nat), readBits 16 (begin s) = .ok hi s1
        ∧ readBits 16 s1 = .raise e d :=
  ⟨⟨zeros 4, _, _, _, _, rfl, rfl⟩, ⟨zeros 0, _, _, rfl⟩, zeros 2, _, _, _, _, rfl, rfl⟩

theorem witness_BlockHeaders :
    (∃ (s s1 s2 : State) (hi lo : Nat), readBits 16 (begin s) = .ok hi s1 ∧ readBits 8 s1 = .ok lo s2)
      ∧ (∃ (s : State) (e : SessionError) (d : Nat), readBits 16 (begin s) = .raise e d)
      ∧ ∃ (s s1 : State) (hi : Nat) (e : SessionError) (d : Nat), readBits 16 (begin s) = .ok hi s1
        ∧ readBits 8 s1 = .raise e d :=
  ⟨⟨zeros 4, _, _, _, _, rfl, rfl⟩, ⟨zeros 0, _, _, rfl⟩, zeros 2, _, _, _, _, rfl, rfl⟩

/-- 43_lzx_blocks.md R119, Example, and a frame one byte too short for it. -/
def rWords (len : Nat) : State :=
  { waiting .blockHdr (.uncompAlignR ⟨3, 5⟩) (fun t => { t with rdC := 4, rdQ := bits (field 4 0), frameLen := len }) with
    inp := mem 4 [5, 0, 0, 0, 4, 0, 0, 0, 1, 0, 0, 0], inLen := 16 }

theorem witness_UncompHeader :
    (∃ (s s1 s2 s3 : State) (h : BlockHdr) (w0 w1 w2 : Word), awaited s = .uncompAlignR h
        ∧ readWord32 (align16 (begin s)) = .ok w0 s1 ∧ readWord32 s1 = .ok w1 s2 ∧ readWord32 s2 = .ok w2 s3)
      ∧ ∃ (s : State) (h : BlockHdr), awaited s = .uncompAlignR h
        ∧ s.sess.frameLen < alignedCursor s.sess + 12 ∧ s.sess.frameLen = 15 :=
  ⟨⟨rWords 16, _, _, _, _, _, _, _, rfl, rfl, rfl, rfl⟩, rWords 15, _, rfl, by decide, rfl⟩

theorem witness_TreeLengths_order :
    (∃ (n k v : Nat) (s s1 s2 : State) (vs : List Nat), readBits n s = .ok v s1 ∧ readFields n k s1 = .ok vs s2
        ∧ n = 3 ∧ k = 1 ∧ v = 5 ∧ vs = [1])
      ∧ (∃ (n : Nat) (s : State) (e : SessionError) (d : Nat), readBits n s = .raise e d ∧ n = 4)
      ∧ ∃ (n k v : Nat) (s s1 : State) (e : SessionError) (d : Nat), readBits n s = .ok v s1
        ∧ readFields n k s1 = .raise e d ∧ n = 3 ∧ k = 1 :=
  ⟨⟨3, 1, _, live .blockHdr (fun t => { t with rdQ := bits (field 6 0b101001) }), _, _, _, rfl, rfl, rfl, rfl, rfl, rfl⟩,
    ⟨4, zeros 0, _, _, rfl, rfl⟩,
    3, 1, _, live .blockHdr (fun t => { t with rdQ := bits (field 5 0) }), _, _, _, rfl, rfl, rfl, rfl⟩

theorem witness_TreeLengths_aligned :
    (∃ (s s1 : State) (h : BlockHdr) (ls : List Nat), awaited s = .alignedLens h
        ∧ readFields 3 8 (begin s) = .ok ls s1 ∧ (kraft ls = 65536 ∨ kraft ls = 0) ∧ ls = [3, 3, 3, 3, 3, 3, 3, 3])
      ∧ (∃ (s s1 : State) (h : BlockHdr) (ls : List Nat), awaited s = .alignedLens h
        ∧ readFields 3 8 (begin s) = .ok ls s1 ∧ kraft ls ≠ 65536 ∧ kraft ls ≠ 0)
      ∧ ∃ (s : State) (h : BlockHdr) (e : SessionError) (d : Nat), awaited s = .alignedLens h
        ∧ readFields 3 8 (begin s) = .raise e d :=
  ⟨⟨waiting .blockHdr (.alignedLens ⟨2, 4⟩) (fun t => { t with
        rdQ := bits ((List.replicate 8 (field 3 3)).flatten) }), _, _, _, rfl, rfl, by decide, rfl⟩,
    ⟨waiting .blockHdr (.alignedLens ⟨2, 4⟩) (fun t => { t with rdQ := bits (field 24 1) }), _, _, _, rfl, rfl,
      by decide, by decide⟩,
    waiting .blockHdr (.alignedLens ⟨2, 4⟩) id, _, _, _, rfl, rfl⟩

theorem witness_TreeLengths_pretree :
    (∃ (s s1 : State) (h : BlockHdr) (p : Pass) (ls : List Nat), s.cfg.valid = true ∧ awaited s = .pretree h p
        ∧ readFields 4 20 (begin s) = .ok ls s1 ∧ (kraft ls = 65536 ∨ kraft ls = 0) ∧ ls = pretreeExample)
      ∧ (∃ (s s1 : State) (h : BlockHdr) (p : Pass) (ls : List Nat), s.cfg.valid = true ∧ awaited s = .pretree h p
        ∧ readFields 4 20 (begin s) = .ok ls s1 ∧ kraft ls ≠ 65536 ∧ kraft ls ≠ 0)
      ∧ ∃ (s : State) (h : BlockHdr) (p : Pass) (e : SessionError) (d : Nat), awaited s = .pretree h p
        ∧ readFields 4 20 (begin s) = .raise e d :=
  ⟨⟨waiting .blockHdr (.pretree ⟨1, 4⟩ .mainHigh) (fun t => { t with
        rdQ := bits (field 4 2 ++ List.replicate 60 false ++ field 16 0x2220) }), _, _, _, _, by decide, rfl, rfl,
      by decide, rfl⟩,
    ⟨waiting .blockHdr (.pretree ⟨1, 4⟩ .lengths) (fun t => { t with
        rdQ := bits (field 4 2 ++ List.replicate 76 false) }), _, _, _, _, by decide, rfl, rfl,
      by decide, by decide⟩,
    waiting .blockHdr (.pretree ⟨1, 4⟩ .mainLow) id, _, _, _, _, rfl, rfl⟩

/-- A pass that awaits the symbol for entry `x`, with these stream bits next. -/
def pass (p : Pass) (x : Nat) (bs : List Bool) (f : Session → Session) : State :=
  waiting .blockHdr (.preSym ⟨1, 4⟩ p x) fun t => f { t with preLen := pretreeExample, rdQ := bits bs }

/-- Each of the four symbols, the last entry of its run one before the pass's end. -/
theorem witness_PreRuns :
    let meets (i : Instr) := ∃ (h : BlockHdr) (p : Pass) (x k v : Nat) (s s1 : State),
      awaited s = .preSym h p x ∧ preRun p x i s k v s1 ∧ x + k < p.last s.cfg ∧ x + k + 1 = p.last s.cfg
    meets (.preDelta 16) ∧ meets .preZeroShort ∧ meets .preZeroLong ∧ meets .preRepeat :=
  ⟨⟨_, .mainLow, 254, 1, 1, pass .mainLow 254 [] id, _, rfl, ⟨rfl, by decide, rfl⟩, by decide, by decide⟩,
    ⟨_, .mainHigh, 492, 19, 0, pass .mainHigh 492 (field 4 15) id, _, rfl, ⟨_, rfl, rfl, rfl⟩, by decide, by decide⟩,
    ⟨_, .lengths, 197, 51, 0, pass .lengths 197 (field 5 31) id, _, rfl, ⟨_, rfl, rfl, rfl⟩, by decide, by decide⟩,
    _, .mainLow, 250, 5, 1, pass .mainLow 250 (true :: field 16 0x4000) id, _, rfl,
    ⟨1, 16, _, rfl, rfl, by decide, rfl, by decide⟩, by decide, by decide⟩

theorem witness_PassEnds :
    let meets (p : Pass) (i : Instr) := ∃ (h : BlockHdr) (x k v : Nat) (s s1 : State),
      awaited s = .preSym h p x ∧ (h.type = 1 ∨ h.type = 2) ∧ preRun p x i s k v s1 ∧ x + k = p.last s.cfg
    meets .mainLow (.preDelta 0) ∧ meets .mainHigh .preZeroShort ∧ meets .lengths .preZeroLong
      ∧ meets .mainLow .preRepeat :=
  ⟨⟨_, 255, 1, 0, pass .mainLow 255 [] id, _, rfl, by decide, ⟨rfl, by decide, rfl⟩, by decide⟩,
    ⟨_, 493, 19, 0, pass .mainHigh 493 (field 4 15) id, _, rfl, by decide, ⟨_, rfl, rfl, rfl⟩, by decide⟩,
    ⟨_, 198, 51, 0, pass .lengths 198 (field 5 31) id, _, rfl, by decide, ⟨_, rfl, rfl, rfl⟩, by decide⟩,
    _, 251, 5, 1, pass .mainLow 251 (true :: field 16 0x4000) id, _, rfl, by decide,
    ⟨1, 16, _, rfl, rfl, by decide, rfl, by decide⟩, by decide⟩

/-- Each run one entry too long, and a repeated symbol of 17 in a run that just fits. -/
theorem witness_RunFaults :
    (∃ (h : BlockHdr) (p : Pass) (x f : Nat) (s s1 : State), awaited s = .preSym h p x
        ∧ readBits 4 (begin s) = .ok f s1 ∧ p.last s.cfg < x + f + 4 ∧ p.last s.cfg + 1 = x + f + 4)
      ∧ (∃ (h : BlockHdr) (p : Pass) (x f : Nat) (s s1 : State), awaited s = .preSym h p x
        ∧ readBits 5 (begin s) = .ok f s1 ∧ p.last s.cfg < x + f + 20 ∧ p.last s.cfg + 1 = x + f + 20)
      ∧ (∃ (h : BlockHdr) (p : Pass) (x f : Nat) (s s1 : State), awaited s = .preSym h p x
        ∧ readBits 1 (begin s) = .ok f s1 ∧ p.last s.cfg < x + f + 4 ∧ p.last s.cfg + 1 = x + f + 4)
      ∧ ∃ (h : BlockHdr) (p : Pass) (x f z2 : Nat) (s s1 s2 : State), awaited s = .preSym h p x
        ∧ readBits 1 (begin s) = .ok f s1 ∧ x + f + 4 ≤ p.last s.cfg ∧ x + f + 4 = p.last s.cfg
        ∧ decodeSymbol .pre s1 = .ok z2 s2 ∧ 16 < z2 ∧ z2 = 17 :=
  ⟨⟨_, .mainLow, 253, 0, pass .mainLow 253 (field 4 0) id, _, rfl, rfl, by decide, by decide⟩,
    ⟨_, .mainHigh, 462, 31, pass .mainHigh 462 (field 5 31) id, _, rfl, rfl, by decide, by decide⟩,
    ⟨_, .lengths, 245, 1, pass .lengths 245 [true] id, _, rfl, rfl, by decide, by decide⟩,
    _, .lengths, 244, 1, 17, pass .lengths 244 (true :: field 16 0x8000) id, _, _, rfl, rfl, by decide, by decide,
    rfl, by decide, rfl⟩

/-! ### Symbols -/

theorem witness_LiteralResult :
    ∃ s : State, s.sess.blockType ≠ 3 ∧ s.sess.blockType = 2 ∧ s.sess.blockRem = 1 ∧ s.sess.frameRem = 1 :=
  ⟨live .decAligned (fun t => { t with blockType := 2, blockRem := 1, frameRem := 1 }), by decide, rfl, rfl, rfl⟩

theorem witness_RawBytes :
    let padDue (s : State) := s.sess.blockRem - 1 = 0 ∧ s.cfg.oddPad = true ∧ s.sess.blockLen % 2 = 1
    (∃ s : State, s.sess.blockType = 3 ∧ padDue s) ∧ (∃ s : State, s.sess.blockType = 3 ∧ ¬ padDue s
        ∧ s.sess.blockRem = 1) ∧ (∃ s : State, s.sess.blockType = 3 ∧ ¬ padDue s ∧ s.sess.blockRem = 2)
      ∧ ∃ s : State, awaited s = .oddPad :=
  ⟨⟨live .decUncomp (fun t => { t with blockType := 3, blockLen := 5, blockRem := 1, rdC := 21 }), rfl, by decide⟩,
    ⟨live .decUncomp (fun t => { t with blockType := 3, blockLen := 6, blockRem := 1, rdC := 22 }), rfl, by decide, rfl⟩,
    ⟨live .decUncomp (fun t => { t with blockType := 3, blockLen := 5, blockRem := 2, rdC := 21 }), rfl, by decide, rfl⟩,
    waiting .decUncomp .oddPad id, rfl⟩

/-- The last byte of an Uncompressed block in one frame, its data from 16 on. -/
def lastRaw (len : Nat) : State :=
  { live .decUncomp (fun t => { t with
      blockType := 3, blockLen := len, blockRem := 1, frameSize := 59 + len, frameLen := 16 + len, rdC := 15 + len }) with
    inLen := 50 }

theorem lastRaw_cursor (len : Nat) (h : 1 ≤ len) : cursorOk (lastRaw len) := fun _ =>
  have e : cursorEven (lastRaw len).sess :=
    ⟨fun _ => ⟨rfl, Nat.one_ne_zero⟩, fun _ _ => ⟨h, nofun, fun _ => show (15 + len) % 2 = (len - 1) % 2 by omega⟩⟩
  ⟨e, fun _ => e, nofun⟩

/-- The same block of 5 bytes, its last byte emitted and the pad byte awaited. -/
def padAwaited : State :=
  let s := lastRaw 5
  { s with
    pend := some ⟨s.sess, .oddPad⟩
    sess := { s.sess with blockRem := 0, frameRem := 59, produced := 1, wpos := 1, written := 1, win := [(0, 0)], rdC := 21 }
    out := [(0, 0)] }

theorem witness_EvenCursor_step :
    ∃ s t, legal s = true ∧ cursorOk s ∧ step s = .next t ∧ s.cfg.oddPad = true ∧ s.sess.ds = .decUncomp :=
  ⟨lastRaw 5, _, by decide +kernel, lastRaw_cursor 5 (by decide), rfl, rfl, rfl⟩

theorem witness_EvenCursor_pad :
    let meets (s : State) := legal s = true ∧ cursorOk s ∧ s.cfg.oddPad = true ∧ s.busy = true ∧ s.pend = none
      ∧ s.sched = [] ∧ s.sess.ds = .decUncomp ∧ s.sess.blockRem = 1
      ∧ s.sess.blockLen ≤ s.sess.frameSize - s.sess.frameRem + 1 ∧ s.sess.rdC < s.sess.frameLen
    (∃ s, meets s ∧ s.sess.blockLen % 2 = 1 ∧ s.sess.blockLen = 5)
      ∧ (∃ s, meets s ∧ s.sess.blockLen % 2 = 0 ∧ s.sess.blockLen = 4)
      ∧ ∃ s : State, legal s = true ∧ cursorOk s ∧ s.cfg.oddPad = true ∧ awaited s = .oddPad
        ∧ s.sess.blockLen ≤ s.sess.frameSize - s.sess.frameRem :=
  ⟨⟨lastRaw 5, ⟨by decide +kernel, lastRaw_cursor 5 (by decide), rfl, rfl, rfl, rfl, rfl, rfl, by decide,
      by decide⟩, rfl, rfl⟩,
    ⟨lastRaw 4, ⟨by decide +kernel, lastRaw_cursor 4 (by decide), rfl, rfl, rfl, rfl, rfl, rfl, by decide,
      by decide⟩, rfl, rfl⟩,
    padAwaited, by decide +kernel, fun h => ⟨(lastRaw_cursor 5 (by decide) h).1, nofun, fun _ _ => rfl⟩, rfl, rfl,
    by decide⟩

theorem witness_SlotRanges :
    (∃ (p : Params) (slot v : Nat), p.valid = true ∧ 3 ≤ slot ∧ slot < p.numPositionSlots ∧ v < 2 ^ extraBits slot
        ∧ slot = 35 ∧ v = 65535)
      ∧ ∃ off : Nat, 1 ≤ off ∧ off + 2 < 2 ^ 18 ∧ off = 262141 :=
  ⟨⟨{ Params.default with windowBits := 18 }, _, _, by decide, by decide, by decide, by decide, rfl, rfl⟩,
    _, by decide, by decide, rfl⟩

theorem hello_history : sessionHistory hello.cfg hello.sess := by
  refine ⟨by decide, by decide, fun j h => ?_⟩
  replace h : j < 5 := h
  interval_cases j <;> decide

theorem witness_CopyMatch :
    ∃ (len off : Nat) (s : State), sessionHistory s.cfg s.sess ∧ 0 < off ∧ off ≤ s.sess.written
      ∧ len ≤ s.cfg.windowSize ∧ off = s.sess.written ∧ len = 258 :=
  ⟨258, 5, hello, hello_history, by decide, by decide, by decide, rfl, rfl⟩

/-- What MatchResult assumes of an element and its state. -/
def matchMeets (i : Instr) (s : State) (slot len off : Nat) : Prop :=
  ∃ s1, matchOperands i s slot len off s1 ∧ s.sess.blockType ≠ 3 ∧ sessionHistory s.cfg s.sess
    ∧ len ≤ s.cfg.windowSize ∧ matchAllowed len off s

theorem witness_MatchResult_repeated :
    matchMeets (.matchR0 6) hello 0 8 5 ∧ matchMeets (.matchR1 0) hello 1 2 4 ∧ matchMeets (.matchR2 0) hello 2 2 1 := by
  refine ⟨⟨_, .inl ⟨6, rfl, by decide, rfl, .inl ⟨rfl, rfl, rfl⟩⟩, by decide, hello_history, by decide, ?_⟩,
    ⟨_, .inl ⟨0, rfl, by decide, rfl, .inr (.inl ⟨rfl, rfl, rfl⟩)⟩, by decide, hello_history, by decide, ?_⟩,
    ⟨_, .inl ⟨0, rfl, by decide, rfl, .inr (.inr (.inl ⟨rfl, rfl, rfl⟩))⟩, by decide, hello_history, by decide, ?_⟩⟩
  <;> unfold matchAllowed <;> decide

/-- `n` written cells from `a`. -/
def cells : Nat → Nat → Memory
  | _, 0 => []
  | a, n + 1 => (a, 0) :: cells (a + 1) n

theorem cells_get (n a j : Nat) (h : a ≤ j) (h' : j < a + n) : ((cells a n).get? j).isSome = true := by
  induction n generalizing a with
  | zero => omega
  | succ n ih =>
    by_cases e : j = a
    · simp [cells, Memory.get?, e]
    · simpa [cells, Memory.get?, e] using ih (a + 1) (by omega) (by omega)

/-- The widest instance, its window full: every slot's lowest and highest offset is allowed. -/
def full (t : BitVec 3) (q : List Bool) : State :=
  let s := live .decVerbatim fun u => { u with
    blockType := t, blockRem := 60, written := 262144, win := cells 0 262144, rdQ := bits q }
  { s with cfg := { Params.default with windowBits := 18 } }

theorem full_history (t : BitVec 3) (q : List Bool) : sessionHistory (full t q).cfg (full t q).sess := by
  refine ⟨Nat.two_pow_pos 18, Nat.le_refl _, fun j _ => cells_get _ _ _ (Nat.zero_le _) ?_⟩
  rw [Nat.zero_add]
  exact Nat.mod_lt _ (Nat.two_pow_pos 18)

/-- An explicit slot of a Verbatim block with this footer is one MatchResult covers. -/
theorem full_meets (slot : Nat) (i : Instr) (b : Bool) (off v : Nat) (s1 : State)
    (hi : Instr.ofSlot slot 0 = some i) (h3 : 3 ≤ slot)
    (hr : readBits (extraBits slot) (begin (full 1 (List.replicate (extraBits slot) b))) = .ok v s1)
    (ho : off = slotBase slot - 2 + v) (h0 : 0 < off) (hw : off ≤ 262144) :
    matchMeets i (full 1 (List.replicate (extraBits slot) b)) slot 2 off :=
  ⟨s1, .inl ⟨0, hi, by decide, rfl, .inr (.inr (.inr ⟨h3, fun h => absurd h.1 (by decide : (1 : BitVec 3) ≠ 2), v, hr, ho⟩))⟩,
    (by decide : (1 : BitVec 3) ≠ 3), full_history _ _, (by decide : 2 ≤ 2 ^ 18),
    (by decide : 2 ≤ 60), (by decide : 2 ≤ 60), h0, hw, hw⟩

/-- Every explicit slot, at its lowest offset and at its highest. -/
theorem witness_MatchResult_slots : ∀ (slot : Nat) (b : Bool), 3 ≤ slot → slot < 36 → ∃ (i : Instr) (off : Nat),
    Instr.ofSlot slot 0 = some i ∧ matchMeets i (full 1 (List.replicate (extraBits slot) b)) slot 2 off
      ∧ off = slotBase slot - 2 + (if b then 2 ^ extraBits slot - 1 else 0) := by
  intro slot b h3 h
  interval_cases slot <;> cases b <;>
    exact ⟨_, _, rfl, full_meets _ _ _ _ _ _ rfl (by decide) rfl rfl (by decide) (by decide), by decide⟩

/-- `hello` in a step that awaits a footer, of the block type `t`. -/
def helloAwaits (d : DState) (c : Ctx) (f : Session → Session) : State :=
  waiting d c fun t => f { t with
    frameRem := 300, blockType := 1, blockRem := 300, produced := 5, wpos := 5, written := 5, r0 := 5, r1 := 4, r2 := 1
    win := mem 0 [0x48, 0x65, 0x6C, 0x6C, 0x6F] }

theorem cells_history (p : Params) (t : Session) (h : t.win = cells 0 p.windowSize) (hp : t.wpos < p.windowSize)
    (hw : t.written = p.windowSize) : sessionHistory p t := by
  refine ⟨hp, Nat.le_of_eq hw, fun j _ => h ▸ cells_get _ _ _ (Nat.zero_le _) ?_⟩
  rw [Nat.zero_add]
  exact Nat.mod_lt _ (Nat.lt_of_le_of_lt (Nat.zero_le _) hp)

/-- A step in a full window of the default instance that awaits a footer. -/
def fullAwaits (d : DState) (c : Ctx) (f : Session → Session) : State :=
  waiting d c fun t => { f { t with frameRem := 258, blockRem := 258 } with
    written := 65536, wpos := 65535, win := cells 0 65536 }

set_option maxRecDepth 8000 in
/-- The shortest and the longest length with a length footer, a repeated and an explicit offset; P4's aligned footer with
its high bits, and the highest offset of slot 10. -/
theorem witness_MatchResult_footers :
    (∃ s, matchMeets .lenFooter s 0 9 1) ∧ (∃ s, matchMeets .lenFooter s 4 258 3)
      ∧ (∃ s, matchMeets .alignedSym s 8 2 14) ∧ ∃ s, matchMeets .alignedSym s 10 2 45 := by
  refine ⟨⟨fullAwaits .decVerbatim (.lenFooter 0) (fun t => { t with
        blockType := 1, lenLen := [1, 1], rdQ := bits (field 16 0) }), _,
      .inr (.inl ⟨rfl, rfl, 0, _, rfl, rfl, .inl ⟨rfl, rfl, rfl⟩⟩), by decide,
      cells_history _ _ rfl (by decide) rfl, by decide, ?_⟩,
    ⟨fullAwaits .decVerbatim (.lenFooter 4) (fun t => { t with
        blockType := 1, lenLen := 1 :: List.replicate 248 0 ++ [1], rdQ := bits (true :: true :: field 15 0) }), _,
      .inr (.inl ⟨rfl, rfl, 249, _, rfl, rfl, .inr (.inr (.inr ⟨by decide, by decide, 1, rfl, rfl⟩))⟩), by decide,
      cells_history _ _ rfl (by decide) rfl, by decide, ?_⟩,
    ⟨fullAwaits .decAligned (.alignedSym 8 2) (fun t => { t with
        blockType := 2, alLen := [1, 0, 1, 0, 0, 0, 0, 0], rdQ := bits (field 16 0) }), _,
      .inr (.inr ⟨rfl, rfl, by decide, 0, 0, _, rfl, rfl, rfl⟩), by decide,
      cells_history _ _ rfl (by decide) rfl, by decide, ?_⟩,
    ⟨fullAwaits .decAligned (.alignedSym 10 2) (fun t => { t with
        blockType := 2, alLen := [1, 0, 0, 0, 0, 0, 0, 1], rdQ := bits (true :: true :: field 15 0) }), _,
      .inr (.inr ⟨rfl, rfl, by decide, 1, 7, _, rfl, rfl, rfl⟩), by decide,
      cells_history _ _ rfl (by decide) rfl, by decide, ?_⟩⟩
  <;> exact ⟨by decide, by decide, by decide, by decide, by decide⟩

/-- MATCH_R0 of length 5 with this offset, where 5 bytes have been written. -/
theorem operands_r0 (r : Word) (n : Nat) :
    let s := { hello with sess := { hello.sess with r0 := r, blockRem := n } }
    matchOperands (.matchR0 3) s 0 5 r.toNat (begin s) :=
  .inl ⟨3, rfl, by decide, rfl, .inl ⟨rfl, rfl, rfl⟩⟩

/-- Each test failing first, at the least value that fails it; where the block is one byte short, offset 0 as well. -/
theorem witness_MatchFaults :
    let meets (s : State) (len off : Nat) := ∃ i s1, matchOperands i s 0 len off s1
    (∃ s len off, meets s len off ∧ min s.sess.blockRem s.sess.frameRem < len
        ∧ min s.sess.blockRem s.sess.frameRem + 1 = len ∧ off = 0)
      ∧ (∃ s len off, meets s len off ∧ len ≤ min s.sess.blockRem s.sess.frameRem ∧ off = 0)
      ∧ (∃ s len off, meets s len off ∧ len ≤ min s.sess.blockRem s.sess.frameRem ∧ off ≠ 0
        ∧ s.cfg.windowSize < off ∧ off = s.cfg.windowSize + 1)
      ∧ ∃ s len off, meets s len off ∧ len ≤ min s.sess.blockRem s.sess.frameRem ∧ off ≠ 0
        ∧ off ≤ s.cfg.windowSize ∧ s.sess.written < off ∧ off = s.sess.written + 1 :=
  ⟨⟨_, 5, _, ⟨_, _, operands_r0 0 4⟩, by decide, by decide, by decide⟩,
    ⟨_, 5, _, ⟨_, _, operands_r0 0 5⟩, by decide, by decide⟩,
    ⟨_, 5, _, ⟨_, _, operands_r0 65537 5⟩, by decide, by decide, by decide, by decide⟩,
    _, 5, _, ⟨_, _, operands_r0 6 5⟩, by decide, by decide, by decide, by decide, by decide⟩

theorem witness_MatchAwaits :
    (∃ (slot : Nat) (lh : BitVec 3) (i : Instr), Instr.ofSlot slot lh = some i ∧ lh = 7)
      ∧ (∃ (slot : Nat) (lh : BitVec 3) (i : Instr) (s : State), Instr.ofSlot slot lh = some i ∧ lh ≠ 7 ∧ 3 ≤ slot
        ∧ s.sess.blockType = 2 ∧ 3 ≤ extraBits slot ∧ slot = 8)
      ∧ ∃ (slot v : Nat) (s s1 : State), awaited s = .lenFooter slot ∧ decodeSymbol .len (begin s) = .ok v s1
        ∧ 3 ≤ slot ∧ s.sess.blockType = 2 ∧ 3 ≤ extraBits slot ∧ v = 1 :=
  ⟨⟨0, 7, _, rfl, rfl⟩,
    ⟨8, 6, _, live .decAligned (fun t => { t with blockType := 2 }), rfl, by decide, by decide, rfl, by decide, rfl⟩,
    8, 1, waiting .decAligned (.lenFooter 8) (fun t => { t with
      blockType := 2, lenLen := [1, 1], rdQ := bits (field 16 0x8000) }), _, rfl, rfl, by decide, rfl, by decide, rfl⟩

theorem witness_RepeatedOffsetLaw_matches :
    ∃ (i : Instr) (s s1 t : State) (slot len off : Nat), matchOperands i s slot len off s1 ∧ s.sess.blockType ≠ 3
      ∧ s.seen.regs = s.sess.regs ∧ exec i s = .next t ∧ t.seen.regs = (4, 5, 1) :=
  ⟨.matchR1 0, hello, _, _, 1, 2, 4, .inl ⟨0, rfl, by decide, rfl, .inr (.inl ⟨rfl, rfl, rfl⟩)⟩, by decide, rfl, rfl,
    rfl⟩

theorem witness_RepeatedOffsetLaw_others :
    ∃ (i : Instr) (s t : State), isHost i = false ∧ i ≠ .uncompAlignR ∧ s.seen.regs = s.sess.regs
      ∧ (∀ slot len, awaited s = .alignedSym slot len → 3 ≤ slot)
      ∧ (∀ slot len off s1, ¬ matchOperands i s slot len off s1) ∧ exec i s = .next t ∧ s.sess.regs = (5, 4, 1) := by
  refine ⟨.mainLiteral 0x41, hello, _, rfl, nofun, rfl, nofun, fun slot len off s1 h => ?_, rfl, rfl⟩
  rcases h with ⟨lh, h, -⟩ | ⟨h, -⟩ | ⟨h, -⟩
  · unfold Instr.ofSlot at h
    split at h <;> cases h
  · cases h
  · cases h

end Sys2Proof.Machine.Tests
end

section
/-! SUPPORT. What the registers of the host read and what the writes of them do: the reserved fields of the register words
(10_state.md R21 to R37), and one equation for each host access of a CSR (46_host_interface.md R152 to R154, R158). -/

namespace Sys2Proof.Machine

/-! ## Bits of a concatenation

A register word is a concatenation of fields from the highest to the lowest. A bit of it is found by leaving out the fields
below it, one at a time (`getLsbD_append_of_le`), and reading it in the field that then stands lowest
(`getLsbD_append_of_lt`); `omega` tells which of the two applies. -/

theorem getLsbD_append_of_le {m n k : Nat} (x : BitVec m) (y : BitVec n) (h : n ≤ k) :
    (x ++ y).getLsbD k = x.getLsbD (k - n) := by
  rw [BitVec.getLsbD_append, if_neg (Nat.not_lt.mpr h)]

theorem getLsbD_append_of_lt {m n k : Nat} (x : BitVec m) (y : BitVec n) (h : k < n) :
    (x ++ y).getLsbD k = y.getLsbD k := by
  rw [BitVec.getLsbD_append, if_pos h]

/-- Two words that agree on their lower `n` bits. -/
theorem getLsbD_eq_of_extractLsb'_zero {n k : Nat} {v w : Word} (h : v.extractLsb' 0 n = w.extractLsb' 0 n)
    (hk : k < n) : v.getLsbD k = w.getLsbD k := by
  simpa [BitVec.getLsbD_extractLsb', hk] using congrArg (·.getLsbD k) h

/-! ## Reserved fields of the register words -/

theorem ctrlWord_reserved (s : State) {k : Nat} (h : k ≠ 2) : (ctrlWord s).getLsbD k = false := by
  unfold ctrlWord
  obtain h | h : k < 2 ∨ 3 ≤ k := by omega
  · simp (disch := omega) only [getLsbD_append_of_lt, BitVec.getLsbD_zero]
  · simp (disch := omega) only [getLsbD_append_of_le, BitVec.getLsbD_zero]

theorem statusWord_reserved (s : State) {k : Nat} (h : k = 6 ∨ k = 7 ∨ 12 ≤ k) :
    (statusWord s).getLsbD k = false := by
  unfold statusWord
  obtain h | h : (6 ≤ k ∧ k < 8) ∨ 12 ≤ k := by omega
  · simp (disch := omega) only [getLsbD_append_of_le, getLsbD_append_of_lt, BitVec.getLsbD_zero]
  · simp (disch := omega) only [getLsbD_append_of_le, BitVec.getLsbD_zero]

theorem errWord_reserved (s : State) {k : Nat} (h : 4 ≤ k ∧ k < 8 ∨ 16 ≤ k) : (errWord s).getLsbD k = false := by
  unfold errWord
  rcases h with h | h
  · simp (disch := omega) only [getLsbD_append_of_le, getLsbD_append_of_lt, BitVec.getLsbD_zero]
  · simp (disch := omega) only [getLsbD_append_of_le, BitVec.getLsbD_zero]

theorem hdrInfoWord_reserved (s : State) {k : Nat} (h : 24 ≤ k) : (hdrInfoWord s).getLsbD k = false := by
  unfold hdrInfoWord
  simp (disch := omega) only [getLsbD_append_of_le, BitVec.getLsbD_zero]

theorem configWord_reserved (s : State) {k : Nat} (h : 5 ≤ k ∧ k < 8 ∨ 10 ≤ k) :
    (configWord s).getLsbD k = false := by
  unfold configWord
  rcases h with h | h
  · simp (disch := omega) only [getLsbD_append_of_le, getLsbD_append_of_lt, BitVec.getLsbD_zero]
  · simp (disch := omega) only [getLsbD_append_of_le, BitVec.getLsbD_zero]

theorem blockInfoWord_reserved (s : State) {k : Nat} (h : 28 ≤ k) : (blockInfoWord s).getLsbD k = false := by
  unfold blockInfoWord
  simp (disch := omega) only [getLsbD_append_of_le, BitVec.getLsbD_zero]

theorem frameRemainingWord_reserved (s : State) {k : Nat} (h : 17 ≤ k) :
    (frameRemainingWord s).getLsbD k = false := by
  unfold frameRemainingWord
  simp (disch := omega) only [getLsbD_append_of_le, BitVec.getLsbD_zero]

theorem magicCfgWord_reserved (s : State) {k : Nat} (h : 24 ≤ k) : (magicCfgWord s).getLsbD k = false := by
  unfold magicCfgWord
  simp (disch := omega) only [getLsbD_append_of_le, BitVec.getLsbD_zero]

/-- Above the last register every offset is reserved (10_state.md R20, R37). -/
theorem csrValue_eq_zero_of_gt (s : State) {o : Nat} (h : 0x050 < o) : csrValue s o = 0 := by
  unfold csrValue
  simp (disch := omega) only [if_neg]

/-! ## Accesses of the registers -/

theorem exec_csrRead_aligned {o : BitVec 12} (h : o.toNat % 4 = 0) (s : State) :
    exec (.csrRead o) s = .next (s.respond (.data (csrValue s o.toNat))) :=
  if_pos h

theorem exec_csrWrite (o : BitVec 12) (v : Word) (s : State) : exec (.csrWrite o v) s = execCsrWrite o v s := rfl

/-- A write of a register that no write acts on is answered and does nothing else (46_host_interface.md R153). -/
theorem exec_csrWrite_inert {o : BitVec 12} (h : o.toNat % 4 = 0) (hctrl : o.toNat ≠ 0x004) (hstatus : o.toNat ≠ 0x008)
    (hinLen : o.toNat ≠ 0x014) (v : Word) (s : State) : exec (.csrWrite o v) s = .next (s.respond .ok) := by
  rw [exec_csrWrite, execCsrWrite, if_pos h, if_neg hctrl, if_neg hstatus, if_neg hinLen]

/-- Whichever of the three rows of CTRL a write decodes to, it is the write of R154. -/
theorem exec_decodeCtrl (v : Word) (s : State) :
    exec (decodeCtrl v) s = .next ((writeCtrl v s).respond .ok) := by
  unfold decodeCtrl
  split
  · rfl
  · split
    · rfl
    · rfl

theorem exec_w1c (v : Word) (s : State) : exec (.w1c v) s = .next ((writeStatus v s).respond .ok) := rfl

/-- A write of CTRL depends on SOFT_RESET, IRQ_EN and START alone (10_state.md R22). -/
theorem writeCtrl_congr {v w : Word} (hstart : v.getLsbD 0 = w.getLsbD 0) (hreset : v.getLsbD 1 = w.getLsbD 1)
    (hirq : v.getLsbD 2 = w.getLsbD 2) (s : State) : writeCtrl v s = writeCtrl w s := by
  simp only [writeCtrl, hstart, hreset, hirq]

/-- A write of STATUS depends on the bits of DONE, FAILED and CMD_IGNORED alone (10_state.md R23). -/
theorem writeStatus_congr {v w : Word} (hdone : v.getLsbD 1 = w.getLsbD 1) (hfailed : v.getLsbD 2 = w.getLsbD 2)
    (hcmd : v.getLsbD 5 = w.getLsbD 5) (s : State) : writeStatus v s = writeStatus w s := by
  simp only [writeStatus, hdone, hfailed, hcmd]

/-! ## The reserved registers -/

/-- Settles O14, clause by clause: the reserved offsets and fields read 0, the writes without a row do nothing, and the
writes of CTRL and STATUS read no reserved bit. -/
theorem reservedCsrs : Obligations.ReservedCsrs := by
  unfold Obligations.ReservedCsrs
  refine ⟨fun o s hal ho => ?read, fun o v s hal hctrl hstatus hinLen => ?write,
    fun s k => ?fields, fun s v w h => ?ctrl, fun s v w hdone hfailed hcmd => ?status⟩
  case read =>
    rw [exec_csrRead_aligned hal, csrValue_eq_zero_of_gt s ho]
    rfl
  case write => exact exec_csrWrite_inert hal hctrl hstatus hinLen v s
  case fields =>
    exact ⟨ctrlWord_reserved s, statusWord_reserved s, errWord_reserved s, hdrInfoWord_reserved s, configWord_reserved s,
      blockInfoWord_reserved s, frameRemainingWord_reserved s, magicCfgWord_reserved s⟩
  case ctrl =>
    have hbit {k : Nat} (hk : k < 3) : v.getLsbD k = w.getLsbD k := getLsbD_eq_of_extractLsb'_zero h hk
    rw [exec_decodeCtrl, exec_decodeCtrl, writeCtrl_congr (hbit (by decide)) (hbit (by decide)) (hbit (by decide))]
  case status => rw [exec_w1c, exec_w1c, writeStatus_congr hdone hfailed hcmd]

end Sys2Proof.Machine
end

section
/-! SUPPORT. The Kraft sum of a length array and the validation of a tree (42_huffman.md R105, R106). -/

namespace Sys2Proof.Machine

/-! ## The Kraft sum, entry by entry -/

/-- A symbol of length 0 has no code and takes no code space. -/
@[simp] theorem kraft_zero_cons (ls : List Nat) : kraft (0 :: ls) = kraft ls := by
  rw [kraft, if_pos rfl, Nat.zero_add]

theorem kraft_cons_of_pos {l : Nat} (h : 0 < l) (ls : List Nat) : kraft (l :: ls) = 2 ^ (16 - l) + kraft ls := by
  rw [kraft, if_neg h.ne']

/-- The recursion of the model is the sum of R105 over the coded symbols, for lengths of any size. -/
theorem kraft_eq_sum_filter_pos (lens : List Nat) :
    kraft lens = ((lens.filter fun l => decide (0 < l)).map fun l => 2 ^ (16 - l)).sum := by
  induction lens with
  | nil => rfl
  | cons l ls ih =>
    obtain rfl | hpos := Nat.eq_zero_or_pos l
    · rw [kraft_zero_cons, ih, List.filter_cons_of_neg (by decide)]
    · rw [kraft_cons_of_pos hpos, ih, List.filter_cons_of_pos (by simpa using hpos), List.map_cons, List.sum_cons]

/-! ## Validation of a tree -/

/-- A complete or an empty tree passes, and the state stays as it is. -/
theorem build_eq_ok {tr : Tree} {s : State} (h : kraft (tr.lens s) = 65536 ∨ kraft (tr.lens s) = 0) :
    build tr s = .ok () s :=
  if_pos h

/-- An over-subscribed or an under-subscribed tree is the tree's own fault. -/
theorem build_eq_raise {tr : Tree} {s : State} (hcomplete : kraft (tr.lens s) ≠ 65536)
    (hempty : kraft (tr.lens s) ≠ 0) :
    build tr s = .raise tr.invalid s.draws :=
  if_neg (not_or.mpr ⟨hcomplete, hempty⟩)

/-- Settles O40: the sum by induction on the length array, the rest from the two cases of `build`. -/
theorem kraftSum : Obligations.KraftSum := by
  unfold Obligations.KraftSum
  exact ⟨kraft_eq_sum_filter_pos, fun _ _ => ⟨build_eq_ok, build_eq_raise⟩⟩

end Sys2Proof.Machine
end

section
/-! SUPPORT. The repeated-offset registers (10_state.md R41, 44_lzx_symbols.md R142): what a match element does to them, and
that every other element but UNCOMP_ALIGN_R keeps them, live and committed. -/

namespace Sys2Proof.Machine

/-! ## Pieces of pseudocode that succeed in a given set of states -/

/-- Where `x` succeeds, its state is in `P`; of a fault or a refusal it says nothing, so that it speaks of every state, not
of those alone whose trees are built. -/
def Res.okIn {α : Type} (x : Res α) (P : State → Prop) : Prop := ∀ a t, x = .ok a t → P t

namespace Res

variable {α β : Type} {P Q : State → Prop}

theorem okIn_ok {a : α} {s : State} (h : P s) : (Res.ok a s).okIn P := by
  rintro _ _ ⟨⟩
  exact h

theorem okIn_raise {e : SessionError} {d : Nat} : (Res.raise e d : Res α).okIn P := by
  rintro _ _ ⟨⟩

theorem okIn_refuse {r : Refusal} : (Res.refuse r : Res α).okIn P := by
  rintro _ _ ⟨⟩

/-- Sequencing: what follows starts from what the first part gives. -/
theorem okIn_bind {x : Res α} {f : α → State → Res β} (hx : x.okIn P) (hf : ∀ a t, P t → (f a t).okIn Q) :
    (x.bind f).okIn Q := by
  intro b u h
  obtain ⟨a, t, hxt, hft⟩ := bind_eq_ok.mp h
  exact hf a t (hx a t hxt) b u hft

end Res

/-! ## States whose live and committed registers are given -/

/-- The registers are `r`, in the live session and in the committed one. -/
def regsAre (r : Word × Word × Word) (s : State) : Prop := s.seen.regs = r ∧ s.sess.regs = r

section
variable {r : Word × Word × Word} {s t : State}

theorem regsAre_of_pend_none (hp : s.pend = none) (h : s.sess.regs = r) : regsAre r s :=
  ⟨by rw [seen_of_none hp, h], h⟩

/-- The two sets of registers depend on the record of the step and the live registers alone. -/
theorem regsAre_congr (h : regsAre r s) (hp : t.pend = s.pend) (hr : t.sess.regs = s.sess.regs) : regsAre r t := by
  obtain ⟨hseen, hlive⟩ := h
  refine ⟨?_, hr.trans hlive⟩
  cases hs : s.pend with
  | none => rw [seen_of_none (hp.trans hs), hr, hlive]
  | some p => rw [seen_congr_some hs hp, hseen]

theorem regsAre_begin (h : regsAre r s) : regsAre r (begin s) := by
  simpa [regsAre] using h

theorem regsAre_readerOnly (h : regsAre r s) (hread : readerOnly s t) : regsAre r t :=
  regsAre_congr h (readerOnly_pend hread) (by rw [readerOnly_sess hread]; rfl)

theorem regsAre_commit (h : s.sess.regs = r) : regsAre r (commit s) := ⟨h, h⟩

theorem regsAre_await (c : Ctx) (h : regsAre r s) : regsAre r (await c s) := h

/-! ## Reads -/

theorem readBits_regsAre (n : Nat) (h : regsAre r s) : (readBits n s).okIn (regsAre r) :=
  fun _ _ hok => regsAre_readerOnly h (readBits_ok_readerOnly hok)

theorem readFields_regsAre (n k : Nat) (h : regsAre r s) : (readFields n k s).okIn (regsAre r) :=
  fun _ _ hok => regsAre_readerOnly h (readFields_ok_readerOnly hok)

theorem decodeSymbol_regsAre (tr : Tree) (h : regsAre r s) : (decodeSymbol tr s).okIn (regsAre r) :=
  fun _ _ hok => regsAre_readerOnly h (decodeSymbol_ok_readerOnly hok)

theorem readBlockLen_regsAre (h : regsAre r s) : (readBlockLen s).okIn (regsAre r) :=
  Res.okIn_bind (readBits_regsAre 16 h) fun _ _ h16 =>
    Res.okIn_bind (readBits_regsAre 8 h16) fun _ _ h8 => Res.okIn_ok h8

theorem build_regsAre (tr : Tree) (h : regsAre r s) : (build tr s).okIn (regsAre r) := by
  unfold build
  split
  · exact Res.okIn_ok h
  · exact Res.okIn_raise

/-! ## Containers and frames -/

theorem drawsOnly_regs (h : drawsOnly s t) : t.sess.regs = s.sess.regs := by
  rw [drawsOnly_sess h]

theorem commitHeader_regs (platform version flags : Byte) (s : State) :
    (commitHeader platform version flags s).sess.regs = s.sess.regs :=
  (drawsOnly_regs (readLe32_drawsOnly s 6) :)

theorem copyPayload_sess (n i : Nat) (s : State) : (copyPayload n i s).sess = s.sess := by
  induction n generalizing i s with
  | zero => rfl
  | succ n ih =>
    rw [copyPayload, ih, State.setOut_sess]
    exact drawsOnly_sess (readIn_drawsOnly s (10 + i))

theorem frameStartGoto_regsAre (h : s.sess.regs = r) : (frameStartGoto s).okIn (regsAre r) := by
  unfold frameStartGoto
  split
  · exact Res.okIn_ok (regsAre_commit h)
  · split
    · exact Res.okIn_ok (regsAre_commit h)
    · split
      · exact Res.okIn_ok (regsAre_commit h)
      · exact Res.okIn_refuse

theorem frameStart_regsAre (a hl bs fs : Nat) (h : s.sess.regs = r) : (frameStart a hl bs fs s).okIn (regsAre r) := by
  unfold frameStart
  split
  · exact Res.okIn_raise
  · split
    · exact Res.okIn_raise
    · split
      · exact Res.okIn_raise
      · exact frameStartGoto_regsAre h

/-! ## Block headers and tree descriptions -/

theorem headerTail_regsAre (b : BlockHdr) (d : DState) (h : s.sess.regs = r) : regsAre r (headerTail b d s) := by
  simp only [headerTail, blockEnd]
  split
  · split
    · exact regsAre_commit h
    · exact regsAre_commit h
  · exact regsAre_commit h

theorem passEnd_regsAre (b : BlockHdr) (p : Pass) (h : regsAre r s) : (passEnd b p s).okIn (regsAre r) := by
  cases p with
  | mainLow => exact Res.okIn_ok (regsAre_await _ h)
  | mainHigh =>
    exact Res.okIn_bind (build_regsAre .main h) fun _ _ hb => Res.okIn_ok (regsAre_await _ hb)
  | lengths =>
    exact Res.okIn_bind (build_regsAre .len h) fun _ _ hb => Res.okIn_ok (headerTail_regsAre _ _ hb.2)

theorem passContinue_regsAre (b : BlockHdr) (p : Pass) (x : Nat) (h : regsAre r s) :
    (passContinue b p x s).okIn (regsAre r) := by
  unfold passContinue
  split
  · exact Res.okIn_ok (regsAre_await _ h)
  · exact passEnd_regsAre b p h

theorem passWrite_regsAre (b : BlockHdr) (p : Pass) (x k v : Nat) (h : regsAre r s) :
    (passWrite b p x k v s).okIn (regsAre r) := by
  refine passContinue_regsAre b p _ (regsAre_congr h ?_ ?_)
  · cases p <;> rfl
  · cases p <;> rfl

theorem zeroRun_regsAre (n k0 : Nat) (h : regsAre r s) : (zeroRun n k0 s).okIn (regsAre r) := by
  unfold zeroRun
  split
  · refine Res.okIn_bind (readBits_regsAre n h) fun f t ht => ?_
    split
    · exact Res.okIn_raise
    · exact passWrite_regsAre _ _ _ _ _ ht
  · exact Res.okIn_refuse

/-! ## The accounting -/

theorem afterElement_regsAre (h : s.sess.regs = r) : regsAre r (afterElement s) := by
  rw [afterElement_eq]
  exact regsAre_of_pend_none rfl h

/-- The accounting keeps the registers, whether it commits or awaits the pad byte. -/
theorem account_regsAre (k : Nat) (h : regsAre r s) : regsAre r (account k s) := by
  simp only [account, blockEnd]
  split
  · split
    · exact regsAre_await _ (regsAre_congr h rfl rfl)
    · split
      · exact afterElement_regsAre h.2
      · exact afterElement_regsAre h.2
  · exact afterElement_regsAre h.2

theorem emit_regsAre (b : Byte) (h : regsAre r s) : regsAre r (emit b s) := regsAre_congr h rfl rfl

end

/-! ## Running an element -/

theorem faulted_regs {e : SessionError} {s t : State} (h : faulted e s t) : t.seen.regs = s.seen.regs := by
  unfold faulted at h
  rw [h]
  rfl

/-- Running an element runs its pseudocode from the opened step alone. -/
theorem runElement_congr {s : State} {f g : State → Res Unit} (h : f (begin s) = g (begin s)) :
    runElement s f = runElement s g := by
  unfold runElement
  rw [h]

/-- An element whose pseudocode keeps the registers leaves the committed ones: a fault goes back to them. -/
theorem runElement_regs {s t : State} {f : State → Res Unit} (hs : s.seen.regs = s.sess.regs)
    (h : runElement s f = .next t) (hf : regsAre s.seen.regs (begin s) → (f (begin s)).okIn (regsAre s.seen.regs)) :
    t.seen.regs = s.seen.regs := by
  obtain hok | ⟨e, d, -, rfl⟩ := runElement_next h
  · exact (hf (regsAre_begin ⟨rfl, hs.symm⟩) () t hok).1
  · exact faulted_regs (takeFault_faulted e d s)

/-! ## Match elements -/

/-- The match symbols are one meaning over the slots (44_lzx_symbols.md R132). -/
theorem exec_ofSlot {slot : Nat} {lh : BitVec 3} {i : Instr} (h : Instr.ofSlot slot lh = some i) (s : State) :
    exec i s = runElement s (matchSymbol slot lh) := by
  unfold Instr.ofSlot at h
  split at h <;> cases h <;> rfl

theorem matchSymbol_of_eq (slot : Nat) (s : State) : matchSymbol slot 7 s = .ok () (await (.lenFooter slot) s) := rfl

theorem matchSymbol_of_ne {slot : Nat} {lh : BitVec 3} (h : lh ≠ 7) (s : State) :
    matchSymbol slot lh s = matchOffset slot (lh.toNat + 2) s :=
  if_neg fun h7 => h (BitVec.eq_of_toNat_eq h7)

theorem offsetRead_readerOnly {slot off : Nat} {s s1 : State} (h : offsetRead slot s off s1) : readerOnly s s1 := by
  obtain ⟨-, -, rfl⟩ | ⟨-, -, rfl⟩ | ⟨-, -, rfl⟩ | ⟨-, -, v, hv, -⟩ := h
  · exact readerOnly_refl _
  · exact readerOnly_refl _
  · exact readerOnly_refl _
  · exact readBits_ok_readerOnly hv

/-- An explicit slot whose offset is not an aligned footer's reads its plain footer (44_lzx_symbols.md R138). -/
theorem matchOffset_of_explicit {slot : Nat} {s : State} (h3 : 3 ≤ slot)
    (hplain : ¬(s.sess.blockType = 2 ∧ 3 ≤ extraBits slot)) (len : Nat) :
    matchOffset slot len s =
      (readBits (extraBits slot) s).bind fun v s => finishExplicit len (slotBase slot - 2 + v) s := by
  rw [matchOffset, if_neg (by omega), if_neg (by omega), if_neg (by omega), if_neg hplain]

/-- An explicit slot whose offset is an aligned footer's awaits that footer (44_lzx_symbols.md R139). -/
theorem matchOffset_of_aligned {slot : Nat} {s : State} (h3 : 3 ≤ slot)
    (haligned : s.sess.blockType = 2 ∧ 3 ≤ extraBits slot) (len : Nat) :
    matchOffset slot len s = .ok () (await (.alignedSym slot len) s) := by
  rw [matchOffset, if_neg (by omega), if_neg (by omega), if_neg (by omega), if_pos haligned]

/-- The explicit match behind its footers, whose reads leave the registers. -/
theorem finishExplicit_eq {slot : Nat} {s s1 : State} (h3 : 3 ≤ slot) (hread : readerOnly s s1) (len off : Nat) :
    finishExplicit len off s1 = finishMatch len off (matchRegs s.cfg.slot2Mode slot off s.sess.regs) s1 := by
  unfold matchRegs
  rw [if_neg (by omega), if_neg (by omega), if_neg (by omega), finishExplicit, readerOnly_sess hread]
  rfl

/-- With the offset read, the slot's rule is the end of the match with the slot's row of registers
(44_lzx_symbols.md R135 to R138). -/
theorem matchOffset_of_offsetRead {slot off : Nat} {s s1 : State} (h : offsetRead slot s off s1) (len : Nat) :
    matchOffset slot len s = finishMatch len off (matchRegs s.cfg.slot2Mode slot off s.sess.regs) s1 := by
  have hread := offsetRead_readerOnly h
  obtain ⟨rfl, rfl, rfl⟩ | ⟨rfl, rfl, rfl⟩ | ⟨rfl, rfl, rfl⟩ | ⟨h3, hplain, v, hv, rfl⟩ := h
  · rfl
  · rfl
  · show finishMatch len _ (slot2Registers s1) s1 = _
    unfold slot2Registers matchRegs
    cases s1.cfg.slot2Mode <;> rfl
  · rw [matchOffset_of_explicit h3 hplain, hv, Res.ok_bind, finishExplicit_eq h3 hread]

/-- The element that completes a match: its pseudocode reads the footers, with the reader alone, and comes to the end of
the match with the slot's row of registers. -/
theorem exec_of_matchOperands {i : Instr} {s s1 : State} {slot len off : Nat} (h : matchOperands i s slot len off s1) :
    readerOnly (begin s) s1
      ∧ exec i s = runElement s fun _ => finishMatch len off (matchRegs s.cfg.slot2Mode slot off s.sess.regs) s1 := by
  obtain ⟨lh, hi, h7, rfl, hoff⟩ | ⟨rfl, haw, v, s0, hv, rfl, hoff⟩ | ⟨rfl, haw, h3, hi, a, s0, hhi, ha, rfl⟩ := h
  case inl =>
    refine ⟨offsetRead_readerOnly hoff, (exec_ofSlot hi s).trans (runElement_congr ?_)⟩
    rw [matchSymbol_of_ne h7, matchOffset_of_offsetRead hoff, begin_cfg, begin_sess]
  case inr.inl =>
    have hread := decodeSymbol_ok_readerOnly hv
    refine ⟨readerOnly_trans hread (offsetRead_readerOnly hoff), (runElement_congr ?_ : execLenFooter s = _)⟩
    have hregs : s0.sess.regs = s.sess.regs := by
      rw [readerOnly_sess hread, begin_sess]
      rfl
    simp only [awaited_begin, haw, hv, Res.ok_bind]
    rw [longLength, matchOffset_of_offsetRead hoff, hregs, readerOnly_cfg hread, begin_cfg]
    rfl
  case inr.inr =>
    have hread := readerOnly_trans (readBits_ok_readerOnly hhi) (decodeSymbol_ok_readerOnly ha)
    refine ⟨hread, (runElement_congr ?_ : execAlignedSym s = _)⟩
    simp only [awaited_begin, haw, hhi, ha, Res.ok_bind]
    rw [finishExplicit_eq h3 hread, begin_cfg, begin_sess]

/-- A match that ends outside an Uncompressed block commits its new registers. -/
theorem finishMatch_regs {len off : Nat} {r : Word × Word × Word} {s t : State} (hb : s.sess.blockType ≠ 3)
    (h : finishMatch len off r s = .ok () t) : t.seen.regs = r := by
  unfold finishMatch at h
  split at h
  · cases h
  · cases h
    rw [account_of_ne _ _ (by rw [copyMatch_frame]; exact hb)]
    rfl

/-- The two ends of the element that completes a match: a fault, or the slot's row of registers. -/
theorem regs_of_matchOperands {i : Instr} {s s1 t : State} {slot len off : Nat}
    (hm : matchOperands i s slot len off s1) (hb : s.sess.blockType ≠ 3) (hregs : s.seen.regs = s.sess.regs)
    (h : exec i s = .next t) :
    (∃ e, faulted e s t ∧ t.seen.regs = s.seen.regs)
      ∨ t.seen.regs = matchRegs s.cfg.slot2Mode slot off s.seen.regs := by
  obtain ⟨hread, hexec⟩ := exec_of_matchOperands hm
  rw [hexec] at h
  obtain hok | ⟨e, d, -, rfl⟩ := runElement_next h
  · right
    rw [hregs]
    have hb1 : s1.sess.blockType ≠ 3 := by
      rw [readerOnly_sess hread, begin_sess]
      exact hb
    exact finishMatch_regs hb1 hok
  · have hfault := takeFault_faulted e d s
    exact .inl ⟨e, hfault, faulted_regs hfault⟩

/-! ## Elements that complete no match -/

/-- A slot whose offset is not read now awaits its aligned footer or fails to read its plain one: slots 0 to 2 always have
their offset. -/
theorem matchOffset_regsAre {slot : Nat} {r : Word × Word × Word} {s : State} (h : regsAre r s)
    (hno : ∀ off s1, ¬ offsetRead slot s off s1) (len : Nat) : (matchOffset slot len s).okIn (regsAre r) := by
  have h3 : 3 ≤ slot := by
    by_contra hlt
    obtain rfl | rfl | rfl : slot = 0 ∨ slot = 1 ∨ slot = 2 := by omega
    · exact hno _ _ (.inl ⟨rfl, rfl, rfl⟩)
    · exact hno _ _ (.inr (.inl ⟨rfl, rfl, rfl⟩))
    · exact hno _ _ (.inr (.inr (.inl ⟨rfl, rfl, rfl⟩)))
  by_cases haligned : s.sess.blockType = 2 ∧ 3 ≤ extraBits slot
  · rw [matchOffset_of_aligned h3 haligned]
    exact Res.okIn_ok (regsAre_await _ h)
  · rw [matchOffset_of_explicit h3 haligned]
    intro _ _ hok
    obtain ⟨v, s1, hv, -⟩ := Res.bind_eq_ok.mp hok
    exact absurd (.inr (.inr (.inr ⟨h3, haligned, v, hv, rfl⟩))) (hno _ s1)

/-- A match symbol that completes no match. -/
theorem matchSymbol_regs {slot : Nat} {lh : BitVec 3} {i : Instr} {s t : State}
    (hexec : exec i s = runElement s (matchSymbol slot lh)) (hi : Instr.ofSlot slot lh = some i)
    (hs : s.seen.regs = s.sess.regs) (hno : ∀ slot len off s1, ¬ matchOperands i s slot len off s1)
    (h : exec i s = .next t) : t.seen.regs = s.seen.regs := by
  rw [hexec] at h
  refine runElement_regs hs h fun hb => ?_
  by_cases h7 : lh = 7
  · subst h7
    rw [matchSymbol_of_eq]
    exact Res.okIn_ok (regsAre_await _ hb)
  · rw [matchSymbol_of_ne h7]
    exact matchOffset_regsAre hb (fun off s1 hoff => hno slot _ off s1 (.inl ⟨lh, hi, h7, rfl, hoff⟩)) _

/-- A length footer that completes no match. -/
theorem execLenFooter_regs {s t : State} (hs : s.seen.regs = s.sess.regs)
    (hno : ∀ slot len off s1, ¬ matchOperands .lenFooter s slot len off s1) (h : execLenFooter s = .next t) :
    t.seen.regs = s.seen.regs := by
  refine runElement_regs hs h fun hb => ?_
  split
  · next slot haw =>
    rw [awaited_begin] at haw
    intro _ u hok
    obtain ⟨v, s0, hv, hrest⟩ := Res.bind_eq_ok.mp hok
    exact matchOffset_regsAre (decodeSymbol_regsAre .len hb _ _ hv)
      (fun off s1 hoff => hno slot _ off s1 (.inr (.inl ⟨rfl, haw, v, s0, hv, rfl, hoff⟩))) _ _ _ hrest
  · exact Res.okIn_refuse

/-- An aligned footer that completes no match reads no offset. -/
theorem execAlignedSym_regs {s t : State} (hs : s.seen.regs = s.sess.regs)
    (hslot : ∀ slot len, awaited s = .alignedSym slot len → 3 ≤ slot)
    (hno : ∀ slot len off s1, ¬ matchOperands .alignedSym s slot len off s1) (h : execAlignedSym s = .next t) :
    t.seen.regs = s.seen.regs := by
  refine runElement_regs hs h fun _ => ?_
  split
  · next slot len haw =>
    rw [awaited_begin] at haw
    intro _ u hok
    obtain ⟨hi, s0, hhi, hrest⟩ := Res.bind_eq_ok.mp hok
    obtain ⟨a, s1, ha, -⟩ := Res.bind_eq_ok.mp hrest
    exact absurd (.inr (.inr ⟨rfl, haw, hslot slot len haw, hi, a, s0, hhi, ha, rfl⟩)) (hno slot len _ s1)
  · exact Res.okIn_refuse

/-! ## The other elements -/

section
variable {s t : State} (hs : s.seen.regs = s.sess.regs)
include hs

theorem execContRaw_regs {platform version flags : Byte} (h : execContRaw platform version flags s = .next t) :
    t.seen.regs = s.seen.regs := by
  refine runElement_regs hs h fun hb => ?_
  have hregs : (commitHeader platform version flags (begin s)).sess.regs = s.seen.regs :=
    (commitHeader_regs ..).trans hb.2
  dsimp only
  generalize commitHeader platform version flags (begin s) = header at hregs ⊢
  split
  · exact Res.okIn_raise
  · exact Res.okIn_ok (regsAre_commit hregs)

theorem execContCompressed_regs {platform version flags : Byte}
    (h : execContCompressed platform version flags s = .next t) : t.seen.regs = s.seen.regs := by
  refine runElement_regs hs h fun hb => ?_
  have hregs : ((commitHeader platform version flags (begin s)).readLe32 10).2.sess.regs = s.seen.regs := by
    rw [drawsOnly_regs (readLe32_drawsOnly ..), commitHeader_regs, hb.2]
  dsimp only
  generalize (commitHeader platform version flags (begin s)).readLe32 10 = size at hregs ⊢
  split
  · exact Res.okIn_raise
  · split
    · exact Res.okIn_raise
    · exact Res.okIn_ok (regsAre_commit hregs)

theorem execContBadmagic_regs (magic : BitVec 24) (h : execContBadmagic magic s = .next t) :
    t.seen.regs = s.seen.regs :=
  runElement_regs hs h fun _ => Res.okIn_raise

theorem execRawCopy_regs (h : execRawCopy s = .next t) : t.seen.regs = s.seen.regs := by
  refine runElement_regs hs h fun hb => Res.okIn_ok (regsAre_of_pend_none rfl ?_)
  exact (congrArg Session.regs (copyPayload_sess ..)).trans hb.2

theorem execFrameExt_regs (h : execFrameExt s = .next t) : t.seen.regs = s.seen.regs := by
  refine runElement_regs hs h fun hb => ?_
  dsimp only
  split
  · exact Res.okIn_raise
  · have hreads := drawsOnly_trans (readIn_drawsOnly (begin s) ((begin s).sess.inPos + 1))
      (drawsOnly_trans (readIn_drawsOnly _ ((begin s).sess.inPos + 2))
        (drawsOnly_trans (readIn_drawsOnly _ ((begin s).sess.inPos + 3))
          (readIn_drawsOnly _ ((begin s).sess.inPos + 4))))
    exact frameStart_regsAre _ _ _ _ ((drawsOnly_regs hreads).trans hb.2)

theorem execFrameStd_regs {h0 : Byte} (h : execFrameStd h0 s = .next t) : t.seen.regs = s.seen.regs := by
  refine runElement_regs hs h fun hb => ?_
  dsimp only
  split
  · exact Res.okIn_raise
  · have hread := readIn_drawsOnly (begin s) ((begin s).sess.inPos + 1)
    exact frameStart_regsAre _ _ _ _ ((drawsOnly_regs hread).trans hb.2)

theorem execE8Off_regs (h : execE8Off s = .next t) : t.seen.regs = s.seen.regs :=
  runElement_regs hs h fun hb => Res.okIn_ok (regsAre_commit hb.2)

theorem execE8On_regs (h : execE8On s = .next t) : t.seen.regs = s.seen.regs :=
  runElement_regs hs h fun hb => Res.okIn_bind (readBits_regsAre 16 hb) fun _ _ hhi =>
    Res.okIn_bind (readBits_regsAre 16 hhi) fun _ _ hlo => Res.okIn_ok (regsAre_commit hlo.2)

/-- BLK_VERBATIM, BLK_ALIGNED and BLK_UNCOMP: a block header whose body follows in the same step. -/
theorem blockHeader_regs {c : Nat → Ctx}
    (h : runElement s (fun s => (readBlockLen s).bind fun n s => .ok () (await (c n) s)) = .next t) :
    t.seen.regs = s.seen.regs :=
  runElement_regs hs h fun hb => Res.okIn_bind (readBlockLen_regsAre hb) fun _ _ hlen =>
    Res.okIn_ok (regsAre_await _ hlen)

theorem execBlkInvalid_regs {type : BitVec 3} (h : execBlkInvalid type s = .next t) : t.seen.regs = s.seen.regs :=
  runElement_regs hs h fun hb => Res.okIn_bind (readBlockLen_regsAre hb) fun _ _ _ => Res.okIn_raise

theorem execAlignedLens_regs (h : execAlignedLens s = .next t) : t.seen.regs = s.seen.regs := by
  refine runElement_regs hs h fun hb => ?_
  dsimp only
  split
  · exact Res.okIn_bind (readFields_regsAre 3 _ hb) fun _ _ hls =>
      Res.okIn_bind (build_regsAre .aligned (regsAre_congr hls rfl rfl)) fun _ _ hbuilt =>
        Res.okIn_ok (regsAre_await _ hbuilt)
  · exact Res.okIn_refuse

theorem execPretree_regs (h : execPretree s = .next t) : t.seen.regs = s.seen.regs := by
  refine runElement_regs hs h fun hb => ?_
  dsimp only
  split
  · exact Res.okIn_bind (readFields_regsAre 4 _ hb) fun _ _ hls =>
      Res.okIn_bind (build_regsAre .pre (regsAre_congr hls rfl rfl)) fun _ _ hbuilt =>
        passContinue_regsAre _ _ _ hbuilt
  · exact Res.okIn_refuse

theorem execPreDelta_regs {z : BitVec 5} (h : execPreDelta z s = .next t) : t.seen.regs = s.seen.regs := by
  refine runElement_regs hs h fun hb => ?_
  split
  · exact passWrite_regsAre _ _ _ _ _ hb
  · exact Res.okIn_refuse

/-- PRE_ZERO_SHORT and PRE_ZERO_LONG. -/
theorem runElement_zeroRun_regs {n k0 : Nat} (h : runElement s (zeroRun n k0) = .next t) :
    t.seen.regs = s.seen.regs :=
  runElement_regs hs h (zeroRun_regsAre n k0)

theorem execPreRepeat_regs (h : execPreRepeat s = .next t) : t.seen.regs = s.seen.regs := by
  refine runElement_regs hs h fun hb => ?_
  split
  · refine Res.okIn_bind (readBits_regsAre 1 hb) fun _ _ hf => ?_
    split
    · exact Res.okIn_raise
    · refine Res.okIn_bind (decodeSymbol_regsAre .pre hf) fun _ _ hz => ?_
      split
      · exact Res.okIn_raise
      · exact passWrite_regsAre _ _ _ _ _ hz
  · exact Res.okIn_refuse

/-- MAIN_LITERAL and RAW_BYTE. -/
theorem runElement_emit_regs {b : Byte}
    (h : runElement s (fun s => .ok () (account 1 (emit b s))) = .next t) : t.seen.regs = s.seen.regs :=
  runElement_regs hs h fun hb => Res.okIn_ok (account_regsAre 1 (emit_regsAre b hb))

theorem execOddPad_regs (h : execOddPad s = .next t) : t.seen.regs = s.seen.regs := by
  refine runElement_regs hs h fun hb => ?_
  split
  · exact Res.okIn_ok (afterElement_regsAre hb.2)
  · exact Res.okIn_refuse

end

/-- Every element but UNCOMP_ALIGN_R and those that complete a match leaves the registers. -/
theorem regs_of_not_matchOperands {i : Instr} {s t : State} (hhost : isHost i = false) (hi : i ≠ .uncompAlignR)
    (hs : s.seen.regs = s.sess.regs) (hslot : ∀ slot len, awaited s = .alignedSym slot len → 3 ≤ slot)
    (hno : ∀ slot len off s1, ¬ matchOperands i s slot len off s1) (h : exec i s = .next t) :
    t.seen.regs = s.seen.regs := by
  cases i with
  | contRaw platform version flags => exact execContRaw_regs hs h
  | contCompressed platform version flags => exact execContCompressed_regs hs h
  | contBadmagic magic => exact execContBadmagic_regs hs magic h
  | rawCopy => exact execRawCopy_regs hs h
  | frameExt => exact execFrameExt_regs hs h
  | frameStd h0 => exact execFrameStd_regs hs h
  | e8Off => exact execE8Off_regs hs h
  | e8On => exact execE8On_regs hs h
  | blkVerbatim => exact blockHeader_regs (c := fun n => .pretree ⟨1, n⟩ .mainLow) hs h
  | blkAligned => exact blockHeader_regs (c := fun n => .alignedLens ⟨2, n⟩) hs h
  | blkUncomp => exact blockHeader_regs (c := fun n => .uncompAlignR ⟨3, n⟩) hs h
  | blkInvalid type => exact execBlkInvalid_regs hs h
  | alignedLens => exact execAlignedLens_regs hs h
  | pretree => exact execPretree_regs hs h
  | preDelta z => exact execPreDelta_regs hs h
  | preZeroShort => exact runElement_zeroRun_regs (n := 4) (k0 := 4) hs h
  | preZeroLong => exact runElement_zeroRun_regs (n := 5) (k0 := 20) hs h
  | preRepeat => exact execPreRepeat_regs hs h
  | mainLiteral b | rawByte b => exact runElement_emit_regs (b := b) hs h
  | matchR0 lh | matchR1 lh | matchR2 lh | matchS3 lh | matchS4 lh | matchS5 lh | matchS6 lh | matchS7 lh | matchS8 lh
  | matchS9 lh | matchS10 lh | matchS11 lh | matchS12 lh | matchS13 lh | matchS14 lh | matchS15 lh | matchS16 lh
  | matchS17 lh | matchS18 lh | matchS19 lh | matchS20 lh | matchS21 lh | matchS22 lh | matchS23 lh | matchS24 lh
  | matchS25 lh | matchS26 lh | matchS27 lh | matchS28 lh | matchS29 lh | matchS30 lh | matchS31 lh | matchS32 lh
  | matchS33 lh | matchS34 lh | matchS35 lh => exact matchSymbol_regs rfl rfl hs hno h
  | lenFooter => exact execLenFooter_regs hs hno h
  | alignedSym => exact execAlignedSym_regs hs hslot hno h
  | uncompAlignR => exact absurd rfl hi
  | oddPad => exact execOddPad_regs hs h
  | csrRead | csrWrite | start | softReset | irqEn | w1c | inLen | inWrite | inRead | outRead | outWrite | busError =>
    cases hhost

/-- Settles O59: the elements that complete a match by their common end, the others by the registers each of their pieces
keeps. -/
theorem repeatedOffsetLaw : Obligations.RepeatedOffsetLaw := by
  unfold Obligations.RepeatedOffsetLaw
  exact ⟨fun _ _ _ _ _ _ _ => regs_of_matchOperands, fun _ _ _ => regs_of_not_matchOperands⟩

end Sys2Proof.Machine
end

section
/-! SUPPORT. The host's writes of CTRL, STATUS and IN_LEN and its accesses of the apertures (46_host_interface.md R154
to R165): what each write of a register does, when an aperture is closed, and that no host access changes `OUT`. -/

namespace Sys2Proof.Machine

/-! ## Writes of the registers -/

theorem writeCtrl_of_softReset {v : Word} (h : v.getLsbD 1 = true) (s : State) : writeCtrl v s = softResetState s :=
  if_pos h

theorem writeCtrl_of_start {v : Word} (hreset : v.getLsbD 1 = false) (hstart : v.getLsbD 0 = true) (s : State) :
    writeCtrl v s = startBit { s with irqEn := v.getLsbD 2 } := by
  simp only [writeCtrl, hreset, hstart, Bool.false_eq_true, if_true, if_false]

theorem writeCtrl_of_irqEn {v : Word} (hreset : v.getLsbD 1 = false) (hstart : v.getLsbD 0 = false) (s : State) :
    writeCtrl v s = { s with irqEn := v.getLsbD 2 } := by
  simp only [writeCtrl, hreset, hstart, Bool.false_eq_true, if_false]

/-- Accepted or refused, a START leaves the interrupt enable (46_host_interface.md R155, R160). -/
@[simp] theorem startBit_irqEn (s : State) : (startBit s).irqEn = s.irqEn := by
  unfold startBit
  split <;> rfl

/-- Accepted or refused, a START leaves the contents of `OUT` (46_host_interface.md R155, R160). -/
@[simp] theorem startBit_out (s : State) : (startBit s).out = s.out := by
  unfold startBit
  split <;> rfl

@[simp] theorem writeCtrl_out (v : Word) (s : State) : (writeCtrl v s).out = s.out := by
  cases hreset : v.getLsbD 1 with
  | true =>
    rw [writeCtrl_of_softReset hreset]
    rfl
  | false =>
    cases hstart : v.getLsbD 0 with
    | true => rw [writeCtrl_of_start hreset hstart, startBit_out]
    | false => rw [writeCtrl_of_irqEn hreset hstart]

/-- The formula of R158 as the case distinction it abbreviates. -/
theorem w1cBit_eq_ite (old v : Bool) : w1cBit old v = if v then false else old := by
  cases v
  · exact Bool.and_true old
  · exact Bool.and_false old

/-- With DONE and FAILED both cleared nothing raises the interrupt line (60_exceptions.md R178). -/
theorem irq_writeStatus_of_clear {v : Word} (hdone : v.getLsbD 1 = true) (hfailed : v.getLsbD 2 = true) (s : State) :
    irq (writeStatus v s) = false := by
  simp [irq, writeStatus, w1cBit_eq_ite, hdone, hfailed]

@[simp] theorem writeStatus_out (v : Word) (s : State) : (writeStatus v s).out = s.out := rfl

theorem writeInLen_of_idle {s : State} (h : s.busy = false) (v : Word) :
    writeInLen v s = { s with inLen := min v.toNat s.cfg.inCap } :=
  if_neg (by simp [h])

theorem writeInLen_of_busy {s : State} (h : s.busy = true) (v : Word) :
    writeInLen v s = { s with cmdIgnored := true } :=
  if_pos h

@[simp] theorem writeInLen_out (v : Word) (s : State) : (writeInLen v s).out = s.out := by
  cases h : s.busy with
  | true => rw [writeInLen_of_busy h]
  | false => rw [writeInLen_of_idle h]

theorem exec_start (v : Word) (s : State) : exec (.start v) s = .next ((writeCtrl v s).respond .ok) := rfl

theorem exec_irqEn (v : Word) (s : State) : exec (.irqEn v) s = .next ((writeCtrl v s).respond .ok) := rfl

theorem exec_inLen (v : Word) (s : State) : exec (.inLen v) s = .next ((writeInLen v s).respond .ok) := rfl

/-! ## Accesses of the apertures -/

/-- While BUSY neither aperture admits an access (46_host_interface.md R165). -/
theorem apertureOk_of_busy {s : State} (h : s.busy = true) (a : Nat) (size : Size) (cap : Nat) :
    ¬ apertureOk s a size cap = true := by
  simp [apertureOk, h]

theorem exec_inWrite_refused {a : BitVec 20} {size : Size} {s : State}
    (h : ¬ apertureOk s a.toNat size s.cfg.inCap = true) (v : Word) :
    exec (.inWrite a size v) s = .next (busErrorResp s) :=
  if_neg h

theorem exec_inRead_refused {a : BitVec 20} {size : Size} {s : State}
    (h : ¬ apertureOk s a.toNat size s.cfg.inCap = true) : exec (.inRead a size) s = .next (busErrorResp s) :=
  if_neg h

theorem exec_outRead_refused {a : BitVec 20} {size : Size} {s : State}
    (h : ¬ apertureOk s a.toNat size s.cfg.outCap = true) : exec (.outRead a size) s = .next (busErrorResp s) :=
  if_neg h

theorem exec_outWrite (a : BitVec 20) (size : Size) (v : Word) (s : State) :
    exec (.outWrite a size v) s = .next (busErrorResp s) := rfl

theorem readInBytes_drawsOnly (n a : Nat) (s : State) : drawsOnly s (readInBytes n a s).2 := by
  induction n generalizing a s with
  | zero => exact drawsOnly_refl s
  | succ n ih => exact drawsOnly_trans (readIn_drawsOnly s a) (ih (a + 1) _)

theorem readOutByte_drawsOnly (a : Nat) (s : State) : drawsOnly s (readOutByte a s).2 := by
  unfold readOutByte
  split
  · exact readCell_drawsOnly s s.out a
  · exact drawsOnly_refl s

theorem readOutBytes_drawsOnly (n a : Nat) (s : State) : drawsOnly s (readOutBytes n a s).2 := by
  induction n generalizing a s with
  | zero => exact drawsOnly_refl s
  | succ n ih => exact drawsOnly_trans (readOutByte_drawsOnly a s) (ih (a + 1) _)

/-! ## No host access changes `OUT` -/

/-- An access whose effect leaves `OUT`, answered with a response. -/
theorem out_of_respond {s u t : State} {r : Resp} (hu : u.out = s.out)
    (h : (.next (u.respond r) : Host.Outcome State Fault Refusal) = .next t) : t.out = s.out := by
  cases h
  exact hu

/-- An access whose effect leaves `OUT`, under a guard without which it is a bus error. -/
theorem out_of_guarded {c : Prop} [Decidable c] {s u t : State} {r : Resp} (hu : u.out = s.out)
    (h : (if c then .next (u.respond r) else .next (busErrorResp s) : Host.Outcome State Fault Refusal) = .next t) :
    t.out = s.out := by
  split at h
  · exact out_of_respond hu h
  · cases h
    exact busErrorResp_out s

theorem execCsrWrite_out {o : BitVec 12} {v : Word} {s t : State} (h : execCsrWrite o v s = .next t) :
    t.out = s.out := by
  refine out_of_guarded ?_ h
  split
  · exact writeCtrl_out v s
  · split
    · exact writeStatus_out v s
    · split
      · exact writeInLen_out v s
      · rfl

/-- `OUT` is written by the engine alone (46_host_interface.md R164). -/
theorem exec_out_of_isHost {i : Instr} {s t : State} (hhost : isHost i = true) (h : exec i s = .next t) :
    t.out = s.out := by
  cases i with
  | csrRead o => exact out_of_guarded rfl h
  | csrWrite o v => exact execCsrWrite_out h
  | start v | softReset v | irqEn v => exact out_of_respond (writeCtrl_out v s) h
  | w1c v => exact out_of_respond (writeStatus_out v s) h
  | inLen v => exact out_of_respond (writeInLen_out v s) h
  | inWrite a size v => exact out_of_guarded (u := { s with inp := writeBytes size.bytes a.toNat v s.inp }) rfl h
  | inRead a size => exact out_of_guarded (drawsOnly_out (readInBytes_drawsOnly size.bytes a.toNat s)) h
  | outRead a size => exact out_of_guarded (drawsOnly_out (readOutBytes_drawsOnly size.bytes a.toNat s)) h
  | outWrite | busError =>
    cases h
    exact busErrorResp_out s
  | _ => cases hhost

/-! ## The host interface -/

/-- Settles O24: the refusal is the row's one rule, and no host access changes the memory `OUT`. -/
theorem outWriteRefused : Obligations.OutWriteRefused := by
  unfold Obligations.OutWriteRefused
  refine ⟨exec_outWrite, fun i s t hhost h a => ?_⟩
  rw [exec_out_of_isHost hhost h]

/-- Settles O17: without START the write is that of the enable alone; with it, START keeps the enable just written. -/
theorem irqEnResult : Obligations.IrqEnResult := by
  unfold Obligations.IrqEnResult
  refine fun v s hreset => ⟨fun hstart => ⟨?_, rfl⟩, fun hstart => ⟨_, exec_start v s, ?_, rfl⟩⟩
  · rw [exec_irqEn, writeCtrl_of_irqEn hreset hstart]
    rfl
  · rw [State.respond_irqEn, writeCtrl_of_start hreset hstart, startBit_irqEn]

/-- Settles O18, each sticky bit by the case of its write bit. -/
theorem w1cResult : Obligations.W1cResult := by
  unfold Obligations.W1cResult
  refine fun v s => ⟨_, exec_w1c v s, ?_, fun hdone hfailed => irq_writeStatus_of_clear hdone hfailed s⟩
  simp only [writeStatus, w1cBit_eq_ite]
  rfl

/-- Settles O19, by the two cases of the write. -/
theorem inLenResult : Obligations.InLenResult := by
  unfold Obligations.InLenResult
  refine fun v s => ⟨fun hidle => ?_, fun hbusy => ?_⟩
  · rw [exec_inLen, writeInLen_of_idle hidle]
    rfl
  · rw [exec_inLen, writeInLen_of_busy hbusy]
    rfl

/-- Settles O23: neither aperture admits an access while BUSY, and OUT_WRITE never does. -/
theorem aperturesClosed : Obligations.AperturesClosed := by
  unfold Obligations.AperturesClosed
  exact fun a size v s hbusy => ⟨exec_inWrite_refused (apertureOk_of_busy hbusy _ _ _) v,
    exec_inRead_refused (apertureOk_of_busy hbusy _ _ _), exec_outRead_refused (apertureOk_of_busy hbusy _ _ _),
    exec_outWrite a size v s⟩

end Sys2Proof.Machine
end

section
/-! SUPPORT. The round trips of the decoder and the encoder (30_encoding.md R66 to R82, 20_memory.md R55, R59): the fields of
a container word, of a main symbol and of an address, read back and put together again. -/

namespace Sys2Proof.Machine

theorem toNat_zero_append (n : Nat) {w : Nat} (x : BitVec w) : (0#n ++ x).toNat = x.toNat := by
  rw [BitVec.toNat_append, BitVec.toNat_zero, Nat.zero_shiftLeft, Nat.zero_or]

/-! ## Main symbols -/

/-- Every row of the slots has its encoding and its limit by its slot (30_encoding.md R75, R77). -/
theorem encode_ofSlot {slot : Nat} {lh : BitVec 3} {i : Instr} (h : Instr.ofSlot slot lh = some i) (p : Params) :
    encode p i = encodeMatch slot lh ∧ i.wellFormed p = slotExists p slot ∧ slot < 36 := by
  unfold Instr.ofSlot at h
  split at h <;> cases h <;> exact ⟨rfl, rfl, by decide⟩

theorem ofSlot_of_lt {slot : Nat} (h : slot < 36) (lh : BitVec 3) : ∃ i, Instr.ofSlot slot lh = some i := by
  interval_cases slot <;> exact ⟨_, rfl⟩

/-- The slot and the length header of a main symbol read back (30_encoding.md R75). -/
theorem decode_encodeMatch {slot : Nat} {lh : BitVec 3} {i : Instr} (h : Instr.ofSlot slot lh = some i) (p : Params) :
    decode p (encodeMatch slot lh) = .ok i := by
  obtain ⟨-, -, hslot⟩ := encode_ofSlot h p
  have hlh := lh.isLt
  have hm : (BitVec.ofNat 10 (256 + 8 * slot + lh.toNat)).toNat = 256 + 8 * slot + lh.toNat :=
    BitVec.toNat_ofNat .. |>.trans (Nat.mod_eq_of_lt (by omega))
  have hlow : (BitVec.ofNat 10 (256 + 8 * slot + lh.toNat)).extractLsb' 0 3 = lh := by
    apply BitVec.eq_of_toNat_eq
    rw [BitVec.extractLsb'_toNat, hm]
    simp only [Nat.shiftRight_zero]
    omega
  show decodeMain _ = _
  rw [decodeMain, hm, hlow, if_neg (by omega), show (256 + 8 * slot + lh.toNat - 256) / 8 = slot by omega, h]

theorem decode_encode_literal (p : Params) (b : Byte) : decode p (encode p (.mainLiteral b)) = .ok (.mainLiteral b) := by
  have hb : (0#2 ++ b).toNat = b.toNat := toNat_zero_append 2 b
  show decodeMain (0#2 ++ b) = _
  rw [decodeMain, if_pos (hb ▸ b.isLt), BitVec.extractLsb'_append_eq_of_add_le (by decide), BitVec.extractLsb'_eq_self]

/-- A main symbol below MAIN_ELEMENTS is put together again from its slot and its length header. -/
theorem encode_of_decodeMain {p : Params} {m : BitVec 10} {i : Instr} (hm : m.toNat < p.mainElements)
    (h : decodeMain m = .ok i) : i.wellFormed p = true ∧ encode p i = .mainSym m := by
  unfold decodeMain at h
  split at h
  · next hlit =>
    cases h
    refine ⟨rfl, congrArg Fetched.mainSym (BitVec.eq_of_toNat_eq ?_)⟩
    rw [toNat_zero_append, BitVec.extractLsb'_toNat, Nat.shiftRight_zero]
    omega
  · next hmatch =>
    split at h
    · next j hj =>
      cases h
      obtain ⟨henc, hwf, hslot⟩ := encode_ofSlot hj p
      have hex : (m.toNat - 256) / 8 < p.numPositionSlots := by
        unfold Params.mainElements at hm
        omega
      refine ⟨hwf.trans (decide_eq_true hex), henc.trans (congrArg Fetched.mainSym (BitVec.eq_of_toNat_eq ?_))⟩
      have hlt := m.isLt
      simp only [BitVec.toNat_ofNat, BitVec.extractLsb'_toNat, Nat.shiftRight_zero]
      omega
    · cases h

/-! ## Container words -/

/-- The four fields of a container word (30_encoding.md R66). -/
theorem extractLsb'_container (magic : BitVec 24) (platform version flags : Byte) :
    (magic ++ platform ++ version ++ flags).extractLsb' 24 24 = magic
      ∧ (magic ++ platform ++ version ++ flags).extractLsb' 16 8 = platform
      ∧ (magic ++ platform ++ version ++ flags).extractLsb' 8 8 = version
      ∧ (magic ++ platform ++ version ++ flags).extractLsb' 0 8 = flags := by
  simp (disch := decide) only [BitVec.extractLsb'_append_eq_of_le, BitVec.extractLsb'_append_eq_of_add_le,
    Nat.reduceSub, BitVec.extractLsb'_eq_self, and_self]

theorem decodeContainer_of_magic (p : Params) (platform version flags : Byte) :
    decodeContainer p (p.magicWord ++ platform ++ version ++ flags) =
      if flags.getLsbD 7 then .contCompressed platform version flags else .contRaw platform version flags := by
  obtain ⟨hmagic, hplatform, hversion, hflags⟩ := extractLsb'_container p.magicWord platform version flags
  rw [decodeContainer, if_neg (not_not.mpr hmagic), hplatform, hversion, hflags,
    getLsbD_append_of_lt _ flags (by decide)]

theorem decodeContainer_of_ne {p : Params} {magic : BitVec 24} (h : magic ≠ p.magicWord) :
    decodeContainer p (magic ++ 0#24) = .contBadmagic magic := by
  have hmagic : (magic ++ 0#24).extractLsb' 24 24 = magic := by
    rw [BitVec.extractLsb'_append_eq_of_le (by decide), BitVec.extractLsb'_eq_self]
  rw [decodeContainer, hmagic, if_pos h]

/-- A container word is the concatenation of its fields. -/
theorem container_eq_append (w : BitVec 48) :
    w = w.extractLsb' 24 24 ++ w.extractLsb' 16 8 ++ w.extractLsb' 8 8 ++ w.extractLsb' 0 8 := by
  rw [BitVec.extractLsb'_append_extractLsb'_eq_extractLsb' (show 24 = 16 + 8 from rfl),
    BitVec.extractLsb'_append_extractLsb'_eq_extractLsb' (show 16 = 8 + 8 from rfl),
    BitVec.extractLsb'_append_extractLsb'_eq_extractLsb' (show 8 = 0 + 8 from rfl), BitVec.extractLsb'_eq_self]

/-- A container word is put together again from its fields, its unread bytes being 0. -/
theorem encode_of_decodeContainer {p : Params} {w : BitVec 48}
    (hunread : w.extractLsb' 24 24 ≠ p.magicWord → w.extractLsb' 0 24 = 0) :
    (decodeContainer p w).wellFormed p = true ∧ encode p (decodeContainer p w) = .container w := by
  have hflag : (w.extractLsb' 0 8).getLsbD 7 = w.getLsbD 7 := by simp
  unfold decodeContainer
  split
  · next hne =>
    refine ⟨by simpa [Instr.wellFormed] using hne, congrArg Fetched.container ?_⟩
    rw [show (0#24 : BitVec 24) = _ from (hunread hne).symm,
      BitVec.extractLsb'_append_extractLsb'_eq_extractLsb' (show 24 = 0 + 24 from rfl), BitVec.extractLsb'_eq_self]
  · next heq =>
    have hw := (container_eq_append w).symm
    rw [not_not.mp heq] at hw
    split
    · next h7 => exact ⟨hflag.trans h7, congrArg Fetched.container hw⟩
    · next h7 =>
      refine ⟨?_, congrArg Fetched.container hw⟩
      simp only [Instr.wellFormed, hflag, h7, Bool.not_false]

/-! ## Addresses -/

theorem regionOf_csrAddr (o : BitVec 12) : regionOf (csrAddr o) = .csr := by
  have h : (csrAddr o).extractLsb' 12 20 = 0 := by
    rw [csrAddr, BitVec.extractLsb'_append_eq_of_le (by decide), BitVec.extractLsb'_eq_self]
    rfl
  rw [regionOf, if_pos h]

theorem extractLsb'_csrAddr (o : BitVec 12) : (csrAddr o).extractLsb' 0 12 = o := by
  rw [csrAddr, BitVec.extractLsb'_append_eq_of_add_le (by decide), BitVec.extractLsb'_eq_self]

theorem toNat_csrAddr (o : BitVec 12) : (csrAddr o).toNat = o.toNat := toNat_zero_append 20 o

/-- An address of an aperture has the aperture's number above its offset (20_memory.md R59). -/
theorem extractLsb'_aperture (n : BitVec 12) (a : BitVec 20) :
    (n ++ a : BitVec 32).extractLsb' 20 12 = n ∧ (n ++ a : BitVec 32).extractLsb' 0 20 = a
      ∧ (n ++ a : BitVec 32).toNat % 4 = a.toNat % 4 := by
  refine ⟨?_, ?_, ?_⟩
  · rw [BitVec.extractLsb'_append_eq_of_le (by decide), BitVec.extractLsb'_eq_self]
  · rw [BitVec.extractLsb'_append_eq_of_add_le (by decide), BitVec.extractLsb'_eq_self]
  · rw [BitVec.toNat_append, ← Nat.shiftLeft_add_eq_or_of_lt a.isLt, Nat.shiftLeft_eq]
    omega

/-- An address whose upper bits are not 0 is no CSR address. -/
theorem extractLsb'_csr_ne {addr : Word} (h : addr.extractLsb' 20 12 ≠ 0) : addr.extractLsb' 12 20 ≠ 0 := by
  intro h0
  apply h
  have h0 : addr.toNat >>> 12 % 2 ^ 20 = 0 := (BitVec.extractLsb'_toNat ..).symm.trans (congrArg BitVec.toNat h0)
  apply BitVec.eq_of_toNat_eq
  show (addr.extractLsb' 20 12).toNat = 0
  rw [BitVec.extractLsb'_toNat]
  simp only [Nat.shiftRight_eq_div_pow] at h0 ⊢
  omega

theorem regionOf_inAddr (a : BitVec 20) : regionOf (inAddr a) = .inAperture := by
  obtain ⟨h, -⟩ := extractLsb'_aperture 1 a
  have h' : (inAddr a).extractLsb' 20 12 = 1 := h
  rw [regionOf, if_neg (extractLsb'_csr_ne (by rw [h']; decide)), if_pos h']

theorem regionOf_outAddr (a : BitVec 20) : regionOf (outAddr a) = .outAperture := by
  obtain ⟨h, -⟩ := extractLsb'_aperture 2 a
  have h' : (outAddr a).extractLsb' 20 12 = 2 := h
  rw [regionOf, if_neg (extractLsb'_csr_ne (by rw [h']; decide)), h', if_neg (by decide), if_pos rfl]

/-- The widths of an aperture depend on the two low bits of the address alone (20_memory.md R55). -/
theorem apertureWidthOk_congr {a b : Nat} (h : a % 4 = b % 4) (size : Size) :
    apertureWidthOk a size = apertureWidthOk b size := by
  cases size <;> simp only [apertureWidthOk, h]

/-- A CSR address is its offset; an aperture's address is the aperture's number and the offset (20_memory.md R59). -/
theorem addr_of_regionOf (addr : Word) :
    (regionOf addr = .csr → csrAddr (addr.extractLsb' 0 12) = addr)
      ∧ (regionOf addr = .inAperture → inAddr (addr.extractLsb' 0 20) = addr)
      ∧ (regionOf addr = .outAperture → outAddr (addr.extractLsb' 0 20) = addr) := by
  have h12 : addr.extractLsb' 12 20 ++ addr.extractLsb' 0 12 = addr := by
    rw [BitVec.extractLsb'_append_extractLsb'_eq_extractLsb' (show 12 = 0 + 12 from rfl), BitVec.extractLsb'_eq_self]
  have h20 : addr.extractLsb' 20 12 ++ addr.extractLsb' 0 20 = addr := by
    rw [BitVec.extractLsb'_append_extractLsb'_eq_extractLsb' (show 20 = 0 + 20 from rfl), BitVec.extractLsb'_eq_self]
  unfold regionOf
  split
  · next h =>
    rw [h] at h12
    exact ⟨fun _ => h12, by simp, by simp⟩
  · split
    · next h =>
      rw [h] at h20
      exact ⟨by simp, fun _ => h20, by simp⟩
    · split
      · next h =>
        rw [h] at h20
        exact ⟨by simp, by simp, fun _ => h20⟩
      · exact ⟨by simp, by simp, by simp⟩

/-! ## Host accesses -/

/-- An access outside the address map or its widths is the row BUS_ERROR (46_host_interface.md R166). -/
theorem decodeHost_of_not_placed {acc : Access} (h : acc.placed = false) : decodeHost acc = .busError acc := by
  cases acc with
  | read addr size =>
    simp only [Access.placed] at h
    simp only [decodeHost]
    cases hr : regionOf addr <;> simp_all
  | write addr size v =>
    simp only [Access.placed] at h
    simp only [decodeHost]
    cases hr : regionOf addr <;> simp_all

theorem decodeHost_csrRead {o : BitVec 12} (h : o.toNat % 4 = 0) :
    decodeHost (.read (csrAddr o) .b32) = .csrRead o := by
  simp [decodeHost, regionOf_csrAddr, csrWidthOk, toNat_csrAddr, h, extractLsb'_csrAddr]

theorem decodeHost_csrWrite {o : BitVec 12} (h : o.toNat % 4 = 0) (v : Word) :
    decodeHost (.write (csrAddr o) .b32 v) = decodeCsrWrite o v := by
  simp [decodeHost, regionOf_csrAddr, csrWidthOk, toNat_csrAddr, h, extractLsb'_csrAddr]

theorem decodeHost_inWrite {a : BitVec 20} {size : Size} (h : apertureWidthOk a.toNat size = true) (v : Word) :
    decodeHost (.write (inAddr a) size v) = .inWrite a size v := by
  obtain ⟨-, hoff, hmod⟩ := extractLsb'_aperture 1 a
  have hw : apertureWidthOk (inAddr a).toNat size = true := (apertureWidthOk_congr hmod size).trans h
  simp only [decodeHost, regionOf_inAddr, hw, if_true]
  exact congrArg (Instr.inWrite · size v) hoff

theorem decodeHost_inRead {a : BitVec 20} {size : Size} (h : apertureWidthOk a.toNat size = true) :
    decodeHost (.read (inAddr a) size) = .inRead a size := by
  obtain ⟨-, hoff, hmod⟩ := extractLsb'_aperture 1 a
  have hw : apertureWidthOk (inAddr a).toNat size = true := (apertureWidthOk_congr hmod size).trans h
  simp only [decodeHost, regionOf_inAddr, hw, if_true]
  exact congrArg (Instr.inRead · size) hoff

theorem decodeHost_outRead {a : BitVec 20} {size : Size} (h : apertureWidthOk a.toNat size = true) :
    decodeHost (.read (outAddr a) size) = .outRead a size := by
  obtain ⟨-, hoff, hmod⟩ := extractLsb'_aperture 2 a
  have hw : apertureWidthOk (outAddr a).toNat size = true := (apertureWidthOk_congr hmod size).trans h
  simp only [decodeHost, regionOf_outAddr, hw, if_true]
  exact congrArg (Instr.outRead · size) hoff

theorem decodeHost_outWrite (a : BitVec 20) (size : Size) (v : Word) :
    decodeHost (.write (outAddr a) size v) = .outWrite a size v := by
  obtain ⟨-, hoff, -⟩ := extractLsb'_aperture 2 a
  simp only [decodeHost, regionOf_outAddr]
  exact congrArg (Instr.outWrite · size v) hoff

/-- A write of a register decodes to a well-formed row of that register, which is encoded as that write. -/
theorem encode_decodeCsrWrite (p : Params) {o : BitVec 12} (h : o.toNat % 4 = 0) (v : Word) :
    (decodeCsrWrite o v).wellFormed p = true
      ∧ encode p (decodeCsrWrite o v) = .host (.write (csrAddr o) .b32 v) := by
  unfold decodeCsrWrite
  split
  · next ho =>
    subst ho
    unfold decodeCtrl
    split
    · next h1 => exact ⟨h1, rfl⟩
    · next h1 =>
      split
      · next h0 => exact ⟨by simp only [Instr.wellFormed, h0, h1, Bool.not_false, Bool.and_self], rfl⟩
      · next h0 => exact ⟨by simp only [Instr.wellFormed, h0, h1, Bool.not_false, Bool.and_self], rfl⟩
  · next h4 =>
    split
    · next ho => exact ⟨rfl, by rw [ho]; rfl⟩
    · next h8 =>
      split
      · next ho => exact ⟨rfl, by rw [ho]; rfl⟩
      · next h14 => exact ⟨by simp only [Instr.wellFormed, actingCsr, h, beq_eq_false_iff_ne.mpr h4,
          beq_eq_false_iff_ne.mpr h8, beq_eq_false_iff_ne.mpr h14]; rfl, rfl⟩

/-- A read decodes to a well-formed row, which is encoded as that read. -/
theorem encode_decodeHost_read (p : Params) (addr : Word) (size : Size) :
    (decodeHost (.read addr size)).wellFormed p = true
      ∧ encode p (decodeHost (.read addr size)) = .host (.read addr size) := by
  cases hpl : (Access.read addr size).placed with
  | false => rw [decodeHost_of_not_placed hpl]; exact ⟨by simp [Instr.wellFormed, hpl], rfl⟩
  | true =>
    obtain ⟨hcsr, hin, hout⟩ := addr_of_regionOf addr
    simp only [Access.placed] at hpl
    cases hr : regionOf addr with
    | csr =>
      rw [hr] at hpl
      simp only [csrWidthOk, Bool.and_eq_true, beq_iff_eq] at hpl
      obtain ⟨rfl, hal⟩ := hpl
      rw [← hcsr hr, toNat_csrAddr] at hal
      rw [← hcsr hr, decodeHost_csrRead hal]
      exact ⟨by simpa [Instr.wellFormed] using hal, rfl⟩
    | inAperture =>
      rw [hr] at hpl
      have hw : apertureWidthOk (addr.extractLsb' 0 20).toNat size = true := by
        rw [← apertureWidthOk_congr (extractLsb'_aperture 1 (addr.extractLsb' 0 20)).2.2]
        exact (congrArg (fun x : Word => apertureWidthOk x.toNat size) (hin hr)).trans hpl
      rw [← hin hr, decodeHost_inRead hw]
      exact ⟨hw, rfl⟩
    | outAperture =>
      rw [hr] at hpl
      have hw : apertureWidthOk (addr.extractLsb' 0 20).toNat size = true := by
        rw [← apertureWidthOk_congr (extractLsb'_aperture 2 (addr.extractLsb' 0 20)).2.2]
        exact (congrArg (fun x : Word => apertureWidthOk x.toNat size) (hout hr)).trans hpl
      rw [← hout hr, decodeHost_outRead hw]
      exact ⟨hw, rfl⟩
    | unmapped => simp [hr] at hpl

/-- A write decodes to a well-formed row, which is encoded as that write. -/
theorem encode_decodeHost_write (p : Params) (addr : Word) (size : Size) (v : Word) :
    (decodeHost (.write addr size v)).wellFormed p = true
      ∧ encode p (decodeHost (.write addr size v)) = .host (.write addr size v) := by
  cases hpl : (Access.write addr size v).placed with
  | false => rw [decodeHost_of_not_placed hpl]; exact ⟨by simp [Instr.wellFormed, hpl], rfl⟩
  | true =>
    obtain ⟨hcsr, hin, hout⟩ := addr_of_regionOf addr
    simp only [Access.placed] at hpl
    cases hr : regionOf addr with
    | csr =>
      rw [hr] at hpl
      simp only [csrWidthOk, Bool.and_eq_true, beq_iff_eq] at hpl
      obtain ⟨rfl, hal⟩ := hpl
      rw [← hcsr hr, toNat_csrAddr] at hal
      rw [← hcsr hr, decodeHost_csrWrite hal]
      exact encode_decodeCsrWrite p hal v
    | inAperture =>
      rw [hr] at hpl
      have hw : apertureWidthOk (addr.extractLsb' 0 20).toNat size = true := by
        rw [← apertureWidthOk_congr (extractLsb'_aperture 1 (addr.extractLsb' 0 20)).2.2]
        exact (congrArg (fun x : Word => apertureWidthOk x.toNat size) (hin hr)).trans hpl
      rw [← hin hr, decodeHost_inWrite hw]
      exact ⟨hw, rfl⟩
    | outAperture =>
      rw [← hout hr, decodeHost_outWrite]
      exact ⟨rfl, rfl⟩
    | unmapped => simp [hr] at hpl

/-! ## The round trips -/

/-- Settles O1, by the rows: the match rows by their slot, the host rows by their region, the others by their word. -/
theorem decodeEncode : Obligations.DecodeEncode := by
  unfold Obligations.DecodeEncode
  intro p i hwf
  cases i with
  | contRaw platform version flags =>
    have h7 : flags.getLsbD 7 = false := by simpa [Instr.wellFormed] using hwf
    exact congrArg Except.ok ((decodeContainer_of_magic ..).trans (by rw [h7]; rfl))
  | contCompressed platform version flags =>
    have h7 : flags.getLsbD 7 = true := by simpa [Instr.wellFormed] using hwf
    exact congrArg Except.ok ((decodeContainer_of_magic ..).trans (by rw [h7]; rfl))
  | contBadmagic m =>
    exact congrArg Except.ok (decodeContainer_of_ne (by simpa [Instr.wellFormed] using hwf))
  | frameStd h0 => exact if_neg (by simpa [Instr.wellFormed] using hwf)
  | blkInvalid t =>
    obtain ⟨⟨h1, h2⟩, h3⟩ : (t ≠ 1 ∧ t ≠ 2) ∧ t ≠ 3 := by simpa [Instr.wellFormed] using hwf
    exact congrArg Except.ok ((if_neg h1).trans ((if_neg h2).trans (if_neg h3)))
  | preDelta z => exact if_pos (by simpa [Instr.wellFormed] using hwf)
  | mainLiteral b => exact decode_encode_literal p b
  | matchR0 lh | matchR1 lh | matchR2 lh | matchS3 lh | matchS4 lh | matchS5 lh | matchS6 lh | matchS7 lh | matchS8 lh
  | matchS9 lh | matchS10 lh | matchS11 lh | matchS12 lh | matchS13 lh | matchS14 lh | matchS15 lh | matchS16 lh
  | matchS17 lh | matchS18 lh | matchS19 lh | matchS20 lh | matchS21 lh | matchS22 lh | matchS23 lh | matchS24 lh
  | matchS25 lh | matchS26 lh | matchS27 lh | matchS28 lh | matchS29 lh | matchS30 lh | matchS31 lh | matchS32 lh
  | matchS33 lh | matchS34 lh | matchS35 lh => exact decode_encodeMatch rfl p
  | csrRead o => exact congrArg Except.ok (decodeHost_csrRead (by simpa [Instr.wellFormed] using hwf))
  | csrWrite o v =>
    obtain ⟨hal, hact⟩ : o.toNat % 4 = 0 ∧ actingCsr o = false := by simpa [Instr.wellFormed] using hwf
    refine congrArg Except.ok ((decodeHost_csrWrite hal v).trans ?_)
    simp only [actingCsr, Bool.or_eq_false_iff, beq_eq_false_iff_ne] at hact
    obtain ⟨⟨h4, h8⟩, h14⟩ := hact
    exact (if_neg h4).trans ((if_neg h8).trans (if_neg h14))
  | start v =>
    obtain ⟨h0, h1⟩ : v.getLsbD 0 = true ∧ v.getLsbD 1 = false := by simpa [Instr.wellFormed] using hwf
    refine congrArg Except.ok ((decodeHost_csrWrite (by decide) v).trans ?_)
    rw [decodeCsrWrite, if_pos rfl, decodeCtrl, h0, h1]
    rfl
  | softReset v =>
    have h1 : v.getLsbD 1 = true := hwf
    refine congrArg Except.ok ((decodeHost_csrWrite (by decide) v).trans ?_)
    rw [decodeCsrWrite, if_pos rfl, decodeCtrl, h1]
    rfl
  | irqEn v =>
    obtain ⟨h0, h1⟩ : v.getLsbD 0 = false ∧ v.getLsbD 1 = false := by simpa [Instr.wellFormed] using hwf
    refine congrArg Except.ok ((decodeHost_csrWrite (by decide) v).trans ?_)
    rw [decodeCsrWrite, if_pos rfl, decodeCtrl, h0, h1]
    rfl
  | w1c v => exact congrArg Except.ok ((decodeHost_csrWrite (by decide) v).trans rfl)
  | inLen v => exact congrArg Except.ok ((decodeHost_csrWrite (by decide) v).trans rfl)
  | inWrite a size v => exact congrArg Except.ok (decodeHost_inWrite hwf v)
  | inRead a size => exact congrArg Except.ok (decodeHost_inRead hwf)
  | outRead a size => exact congrArg Except.ok (decodeHost_outRead hwf)
  | outWrite a size v => exact congrArg Except.ok (decodeHost_outWrite a size v)
  | busError acc => exact congrArg Except.ok (decodeHost_of_not_placed (by simpa [Instr.wellFormed] using hwf))
  | _ => rfl

/-- Settles O2, by the context of the word. -/
theorem decodedWords : Obligations.DecodedWords := by
  unfold Obligations.DecodedWords
  intro p w i hmain hcont h
  cases w with
  | container w =>
    cases h
    exact encode_of_decodeContainer (hcont w rfl)
  | frame h0 =>
    simp only [decode] at h
    split at h
    · next hff => cases h; exact ⟨rfl, by rw [hff]; rfl⟩
    · next hff => cases h; exact ⟨by simpa [Instr.wellFormed] using hff, rfl⟩
  | stream e8 =>
    simp only [decode] at h
    split at h
    · next h1 => cases h; exact ⟨rfl, by rw [h1]; rfl⟩
    · next h1 =>
      cases h
      refine ⟨rfl, congrArg Fetched.stream (BitVec.eq_of_toNat_eq ?_)⟩
      have hlt := e8.isLt
      have hne : e8.toNat ≠ 1 := fun h => h1 (BitVec.eq_of_toNat_eq h)
      show 0 = e8.toNat
      omega
  | block t =>
    cases h
    unfold decodeBlock
    split
    · next ht => exact ⟨rfl, by rw [ht]; rfl⟩
    · split
      · next ht => exact ⟨rfl, by rw [ht]; rfl⟩
      · split
        · next ht => exact ⟨rfl, by rw [ht]; rfl⟩
        · next h1 h2 h3 => exact ⟨by simpa [Instr.wellFormed] using ⟨⟨h1, h2⟩, h3⟩, rfl⟩
  | preSym z =>
    simp only [decode, decodePre] at h
    split at h
    · next hz => cases h; exact ⟨decide_eq_true hz, rfl⟩
    · split at h
      · next hz => cases h; exact ⟨rfl, by rw [hz]; rfl⟩
      · split at h
        · next hz => cases h; exact ⟨rfl, by rw [hz]; rfl⟩
        · split at h
          · next hz => cases h; exact ⟨rfl, by rw [hz]; rfl⟩
          · cases h
  | mainSym m => exact encode_of_decodeMain (hmain m rfl) h
  | lenFooter lh =>
    simp only [decode] at h
    split at h
    · next h7 => cases h; exact ⟨rfl, by rw [h7]; rfl⟩
    · cases h
  | host a =>
    cases h
    cases a with
    | read addr size => exact encode_decodeHost_read p addr size
    | write addr size v => exact encode_decodeHost_write p addr size v
  | rawPayload | alignedLens | pretree | alignedSym | uncompBody | rawByte | oddPad =>
    cases h
    exact ⟨rfl, rfl⟩

end Sys2Proof.Machine
end

section
/-! SUPPORT. What the container elements and the frame headers do (40_container.md R85 to R90, 45_frame_demux.md R146 to
R150), as equations in the state the element is run in. -/

namespace Sys2Proof.Machine

/-! ## Opening a step, and reading -/

/-- An open step, in one record: it holds the committed session and the element awaited. -/
theorem begin_eq_record (s : State) : begin s = { s with pend := some ⟨s.seen, awaited s⟩ } := by
  conv_lhs => rw [begin_eq, begin_pend]

/-- The draws as the one thing that varies. -/
theorem drawsOnly_iff {s t : State} : drawsOnly s t ↔ ∃ d, t = { s with draws := d } :=
  ⟨fun h => ⟨_, h⟩, by rintro ⟨d, rfl⟩; rfl⟩

theorem drawsOnly_readIn_some {s t : State} (h : drawsOnly s t) {a : Nat} {b : Byte} (hb : s.inp.get? a = some b) :
    (t.readIn a).1 = b := by
  rw [readIn_some ((drawsOnly_inp h ▸ hb : t.inp.get? a = some b))]

/-- The four bytes of a little-endian word (20_memory.md R52). -/
theorem extractLsb'_le32 (b0 b1 b2 b3 : Byte) :
    (le32 b0 b1 b2 b3).extractLsb' 0 8 = b0 ∧ (le32 b0 b1 b2 b3).extractLsb' 8 8 = b1
      ∧ (le32 b0 b1 b2 b3).extractLsb' 16 8 = b2 ∧ (le32 b0 b1 b2 b3).extractLsb' 24 8 = b3 := by
  unfold le32
  simp (disch := decide) only [BitVec.extractLsb'_append_eq_of_le, BitVec.extractLsb'_append_eq_of_add_le,
    Nat.reduceSub, BitVec.extractLsb'_eq_self, and_self]

/-- Byte `k` of a little-endian word of `IN` is the byte at `a + k`, where that is written. -/
theorem readLe32_byte {s : State} {a k : Nat} {b : Byte} (hk : k < 4) (hb : s.inp.get? (a + k) = some b) :
    (s.readLe32 a).1.extractLsb' (8 * k) 8 = b := by
  have h1 := readIn_drawsOnly s a
  have h2 := drawsOnly_trans h1 (readIn_drawsOnly _ (a + 1))
  have h3 := drawsOnly_trans h2 (readIn_drawsOnly _ (a + 2))
  obtain ⟨e0, e1, e2, e3⟩ := extractLsb'_le32 (s.readIn a).1 ((s.readIn a).2.readIn (a + 1)).1
    (((s.readIn a).2.readIn (a + 1)).2.readIn (a + 2)).1
    ((((s.readIn a).2.readIn (a + 1)).2.readIn (a + 2)).2.readIn (a + 3)).1
  match k, hk with
  | 0, _ => exact e0.trans (drawsOnly_readIn_some (drawsOnly_refl s) hb)
  | 1, _ => exact e1.trans (drawsOnly_readIn_some h1 hb)
  | 2, _ => exact e2.trans (drawsOnly_readIn_some h2 hb)
  | 3, _ => exact e3.trans (drawsOnly_readIn_some h3 hb)

/-! ## Containers -/

/-- The header fields of an accepted container, in one record (40_container.md R86). -/
theorem commitHeader_eq (platform version flags : Byte) (s : State) :
    commitHeader platform version flags s = { s with
      hdrPlatform := platform, hdrVersion := version, hdrFlags := flags
      hdrFileSize := (s.readLe32 6).1
      compressed := flags.getLsbD 7
      draws := (s.readLe32 6).2.draws
      sess := { s.sess with compressed := flags.getLsbD 7 } } := by
  have hd : (s.readLe32 6).2 = { s with draws := (s.readLe32 6).2.draws } := readLe32_drawsOnly s 6
  show { (s.readLe32 6).2 with
      hdrPlatform := platform, hdrVersion := version, hdrFlags := flags, hdrFileSize := (s.readLe32 6).1
      compressed := flags.getLsbD 7
      sess := { (s.readLe32 6).2.sess with compressed := flags.getLsbD 7 } } = _
  rw [hd]

/-- CONT_RAW whose payload fits (40_container.md R88). -/
theorem exec_contRaw_ok (platform version flags : Byte) {s : State} (h : s.inLen - 10 ≤ s.cfg.outCap) :
    exec (.contRaw platform version flags) s = .next { s with
      pend := none
      hdrPlatform := platform, hdrVersion := version, hdrFlags := flags
      hdrFileSize := ((begin s).readLe32 6).1, hdrDecSize := 0, compressed := flags.getLsbD 7
      draws := ((begin s).readLe32 6).2.draws
      sess := { s.sess with compressed := flags.getLsbD 7, decSize := s.inLen - 10, ds := .rawCopy } } := by
  show execContRaw platform version flags s = _
  refine runElement_ok ?_
  rw [begin_cfg, begin_inLen, if_neg (Nat.not_lt.mpr h), commitHeader_eq, begin_eq_record]
  rfl

theorem exec_contRaw_over (platform version flags : Byte) {s : State} (h : s.cfg.outCap < s.inLen - 10) :
    ∃ t, exec (.contRaw platform version flags) s = .next t ∧ faulted .outCapacity s t := by
  show ∃ t, execContRaw platform version flags s = _ ∧ _
  refine runElement_raise (d := s.draws) ?_
  rw [begin_cfg, begin_inLen, if_pos h, begin_draws]

/-- The declared size that CONT_COMPRESSED reads (40_container.md R89). -/
def declaredSize (platform version flags : Byte) (s : State) : Word × State :=
  (commitHeader platform version flags (begin s)).readLe32 10

theorem declaredSize_byte (platform version flags : Byte) {s : State} {k : Nat} {b : Byte} (hk : k < 4)
    (hb : s.inp.get? (10 + k) = some b) : (declaredSize platform version flags s).1.extractLsb' (8 * k) 8 = b :=
  readLe32_byte hk (by rwa [commitHeader_eq, begin_eq_record])

/-- CONT_COMPRESSED whose declared size fits (40_container.md R89). -/
theorem exec_contCompressed_ok (platform version flags : Byte) {s : State} (h : 14 ≤ s.inLen)
    (hd : (declaredSize platform version flags s).1.toNat ≤ s.cfg.outCap) :
    exec (.contCompressed platform version flags) s = .next { s with
      pend := none
      hdrPlatform := platform, hdrVersion := version, hdrFlags := flags
      hdrFileSize := ((begin s).readLe32 6).1, hdrDecSize := (declaredSize platform version flags s).1
      compressed := flags.getLsbD 7
      draws := (declaredSize platform version flags s).2.draws
      sess := { s.sess with
        compressed := flags.getLsbD 7, decSize := (declaredSize platform version flags s).1.toNat, inPos := 14
        produced := 0, ds := .frameHdr } } := by
  have hdraws : drawsOnly _ (declaredSize platform version flags s).2 :=
    readLe32_drawsOnly (commitHeader platform version flags (begin s)) 10
  show execContCompressed platform version flags s = _
  refine runElement_ok ?_
  rw [begin_inLen, if_neg (Nat.not_lt.mpr h)]
  unfold declaredSize at *
  rw [commitHeader_eq, begin_eq_record] at *
  dsimp only
  generalize State.readLe32 _ 10 = r at *
  obtain ⟨size, u⟩ := r
  obtain ⟨d, rfl⟩ := drawsOnly_iff.mp hdraws
  exact (if_neg (Nat.not_lt.mpr hd)).trans rfl

theorem exec_contCompressed_short (platform version flags : Byte) {s : State} (h : s.inLen < 14) :
    ∃ t, exec (.contCompressed platform version flags) s = .next t ∧ faulted .headerShort s t := by
  show ∃ t, execContCompressed platform version flags s = _ ∧ _
  refine runElement_raise (d := s.draws) ?_
  rw [begin_inLen, if_pos h, begin_draws]

theorem exec_contCompressed_over (platform version flags : Byte) {s : State} (h : 14 ≤ s.inLen)
    (hd : s.cfg.outCap < (declaredSize platform version flags s).1.toNat) :
    ∃ t, exec (.contCompressed platform version flags) s = .next t ∧ faulted .outCapacity s t := by
  have hdraws : drawsOnly _ (declaredSize platform version flags s).2 :=
    readLe32_drawsOnly (commitHeader platform version flags (begin s)) 10
  show ∃ t, execContCompressed platform version flags s = _ ∧ _
  refine runElement_raise (d := (declaredSize platform version flags s).2.draws) ?_
  rw [begin_inLen, if_neg (Nat.not_lt.mpr h)]
  unfold declaredSize at *
  rw [commitHeader_eq, begin_eq_record] at *
  dsimp only
  generalize State.readLe32 _ 10 = r at *
  obtain ⟨size, u⟩ := r
  obtain ⟨d, rfl⟩ := drawsOnly_iff.mp hdraws
  exact if_pos hd

theorem exec_contBadmagic (magic : BitVec 24) (s : State) :
    ∃ t, exec (.contBadmagic magic) s = .next t ∧ faulted .badMagic s t := by
  show ∃ t, execContBadmagic magic s = _ ∧ _
  exact runElement_raise rfl

/-- Settles O41, by the checks of each container row. -/
theorem containerResults : Obligations.ContainerResults := by
  unfold Obligations.ContainerResults
  refine ⟨fun platform version flags s => ⟨exec_contRaw_over platform version flags, fun h => ?_⟩,
    fun platform version flags s => ⟨exec_contCompressed_short platform version flags, fun h => ?_⟩, exec_contBadmagic⟩
  · exact ⟨_, exec_contRaw_ok platform version flags h, rfl,
      fun k b hk hb => readLe32_byte (s := begin s) hk (by rwa [begin_inp])⟩
  · obtain hd | hd := Nat.lt_or_ge s.cfg.outCap (declaredSize platform version flags s).1.toNat
    · obtain ⟨t, ht, hf⟩ := exec_contCompressed_over platform version flags h hd
      exact ⟨_, t, ht, fun k b => declaredSize_byte platform version flags, fun _ => hf, fun hle => absurd hd (by omega)⟩
    · exact ⟨_, _, exec_contCompressed_ok platform version flags h hd,
        fun k b => declaredSize_byte platform version flags, fun hlt => absurd hd (by omega),
        fun _ => ⟨rfl, fun k b hk hb => readLe32_byte (s := begin s) hk (by rwa [begin_inp])⟩⟩

/-! ## The raw copy -/

/-- The loop of the raw copy writes `OUT` and may draw. -/
theorem copyPayload_frame (n i : Nat) (s : State) :
    copyPayload n i s = { s with out := (copyPayload n i s).out, draws := (copyPayload n i s).draws } := by
  induction n generalizing i s with
  | zero => rfl
  | succ n ih =>
    have hd : (s.readIn (10 + i)).2 = _ := readIn_drawsOnly s (10 + i)
    rw [copyPayload, ih, hd]
    rfl

/-- The bytes of `OUT` behind the raw copy: a byte of `IN` where that is written, some byte everywhere in the range. -/
theorem copyPayload_out (n i : Nat) (s : State) :
    (∀ a, i ≤ a → a < i + n → ((copyPayload n i s).out.get? a).isSome = true)
      ∧ (∀ a b, i ≤ a → a < i + n → s.inp.get? (10 + a) = some b → (copyPayload n i s).out.get? a = some b)
      ∧ ∀ a, a < i ∨ i + n ≤ a → (copyPayload n i s).out.get? a = s.out.get? a := by
  induction n generalizing i s with
  | zero => exact ⟨fun a h1 h2 => by omega, fun a b h1 h2 => by omega, fun _ _ => rfl⟩
  | succ n ih =>
    have hd := readIn_drawsOnly s (10 + i)
    obtain ⟨hsome, hbyte, hrest⟩ := ih (i + 1) ((s.readIn (10 + i)).2.setOut i (s.readIn (10 + i)).1)
    simp only [State.setOut_inp, drawsOnly_inp hd] at hbyte
    simp only [State.setOut_out, drawsOnly_out hd] at hrest
    simp only [copyPayload]
    refine ⟨fun a h1 h2 => ?_, fun a b h1 h2 hb => ?_, fun a ha => ?_⟩
    · obtain rfl | hne := eq_or_ne a i
      · rw [hrest a (by omega), Memory.get?_set_self]
        rfl
      · exact hsome a (by omega) (by omega)
    · obtain rfl | hne := eq_or_ne a i
      · rw [hrest a (by omega), Memory.get?_set_self, readIn_some hb]
      · exact hbyte a b (by omega) (by omega) hb
    · rw [hrest a (by omega), Memory.get?_set_ne _ _ (by omega)]

/-- RAW_COPY, in one record (40_container.md R90). -/
theorem exec_rawCopy (s : State) :
    exec .rawCopy s = .next { s with
      pend := none
      out := (copyPayload s.sess.decSize 0 (begin s)).out
      outLen := s.sess.decSize
      busy := false
      done := true
      draws := (copyPayload s.sess.decSize 0 (begin s)).draws
      sess := { s.sess with produced := s.sess.decSize, ds := .done } } := by
  show execRawCopy s = _
  refine runElement_ok ?_
  show Res.ok () (endDone { copyPayload (begin s).sess.decSize 0 (begin s) with
    sess := { (copyPayload (begin s).sess.decSize 0 (begin s)).sess with
      produced := (copyPayload (begin s).sess.decSize 0 (begin s)).sess.decSize } }) = _
  rw [begin_sess, copyPayload_frame, begin_eq_record]
  rfl

/-- Settles O42, by the loop of the copy. -/
theorem rawCopyResult : Obligations.RawCopyResult := by
  unfold Obligations.RawCopyResult
  intro s
  obtain ⟨hsome, hbyte, hrest⟩ := copyPayload_out s.sess.decSize 0 (begin s)
  rw [begin_inp] at hbyte
  rw [begin_out] at hrest
  exact ⟨_, exec_rawCopy s, rfl, fun a ha => hsome a (by omega) (by omega),
    fun a b ha hb => hbyte a b (by omega) (by omega) hb, fun a ha => hrest a (by omega)⟩

/-! ## Frame headers -/

/-- The `goto` of `frame_start` where it resumes a block of a valid type, or none (45_frame_demux.md R148, R150). -/
theorem frameStartGoto_ok {s : State} (h : s.sess.headerRead = false ∨ s.sess.blockRem = 0 ∨ s.sess.blockType = 1
      ∨ s.sess.blockType = 2 ∨ s.sess.blockType = 3) :
    ∃ d, frameStartGoto s = .ok () (commit (s.goto d))
      ∧ (s.sess.headerRead = false → d = .streamHdr)
      ∧ (s.sess.headerRead = true → s.sess.blockRem = 0 → d = .blockHdr)
      ∧ (s.sess.headerRead = true → s.sess.blockRem ≠ 0 → decStateOf s.sess.blockType = some d) := by
  unfold frameStartGoto
  cases hr : s.sess.headerRead with
  | false => exact ⟨_, rfl, fun _ => rfl, by simp, by simp⟩
  | true =>
    obtain h0 | h0 := eq_or_ne s.sess.blockRem 0
    · exact ⟨_, (if_neg (by simp)).trans (if_pos h0), by simp, fun _ _ => rfl, fun _ hne => absurd h0 hne⟩
    · obtain ⟨d, hd⟩ : ∃ d, decStateOf s.sess.blockType = some d := by
        obtain h | h | h | h | h := h
        · simp [hr] at h
        · exact absurd h h0
        · exact ⟨_, by rw [h]; rfl⟩
        · exact ⟨_, by rw [h]; rfl⟩
        · exact ⟨_, by rw [h]; rfl⟩
      exact ⟨d, (if_neg (by simp)).trans ((if_neg h0).trans (by rw [hd])), by simp,
        fun _ hz => absurd hz h0, fun _ _ => hd⟩

/-- What the checks of a frame header have in common with their faults, in order (45_frame_demux.md R148). -/
theorem frameStart_zero {bs fs : Nat} (h : bs = 0 ∨ fs = 0) (a hl : Nat) (s : State) :
    frameStart a hl bs fs s = .raise .frameZeroSize s.draws := if_pos h

theorem frameStart_over {bs fs : Nat} {s : State} (hbs : bs ≠ 0) (hfs : fs ≠ 0)
    (h : s.sess.decSize - s.sess.produced < fs) (a hl : Nat) :
    frameStart a hl bs fs s = .raise .frameOverTotal s.draws :=
  (if_neg (not_or.mpr ⟨hbs, hfs⟩)).trans (if_pos h)

theorem frameStart_short {a hl bs fs : Nat} {s : State} (hbs : bs ≠ 0) (hfs : fs ≠ 0)
    (hle : fs ≤ s.sess.decSize - s.sess.produced) (h : s.inLen < a + hl + bs) :
    frameStart a hl bs fs s = .raise .frameDataShort s.draws :=
  (if_neg (not_or.mpr ⟨hbs, hfs⟩)).trans ((if_neg (Nat.not_lt.mpr hle)).trans (if_pos h))

/-- A frame header that passes its checks starts its frame (45_frame_demux.md R148, R150). -/
theorem frameStart_ok {a hl bs fs : Nat} {s : State} (hbs : bs ≠ 0) (hfs : fs ≠ 0)
    (hle : fs ≤ s.sess.decSize - s.sess.produced) (hdata : a + hl + bs ≤ s.inLen)
    (hblock : s.sess.headerRead = false ∨ s.sess.blockRem = 0 ∨ s.sess.blockType = 1 ∨ s.sess.blockType = 2
      ∨ s.sess.blockType = 3) :
    ∃ t, frameStart a hl bs fs s = .ok () t ∧ frameStarted a hl bs fs s t := by
  obtain ⟨d, hgo, hstream, hhdr, hdec⟩ := frameStartGoto_ok
    (s := { readerInit (a + hl) bs { s with sess := { s.sess with fhdrPos := a } } with
      sess := { (readerInit (a + hl) bs { s with sess := { s.sess with fhdrPos := a } }).sess with
        frameSize := fs, frameRem := fs, frameCount := s.sess.frameCount + 1 } }) hblock
  exact ⟨_, (if_neg (not_or.mpr ⟨hbs, hfs⟩)).trans ((if_neg (Nat.not_lt.mpr hle)).trans
    ((if_neg (Nat.not_lt.mpr hdata)).trans hgo)), rfl, hstream, hhdr, hdec⟩

/-- Reads before a frame starts leave no trace but their draws. -/
theorem frameStarted_of_drawsOnly {a hl bs fs : Nat} {s u t : State} (hd : drawsOnly (begin s) u)
    (h : frameStarted a hl bs fs u t) : frameStarted a hl bs fs s t := by
  have hsess : u.sess = s.sess := (drawsOnly_sess hd).trans (begin_sess s)
  obtain ⟨heq, hstream, hhdr, hdec⟩ := h
  rw [hsess] at hstream hhdr hdec
  refine ⟨heq.trans ?_, hstream, hhdr, hdec⟩
  unfold drawsOnly at hd
  rw [hd, begin_eq_record]

/-- The state behind the four size bytes of FRAME_EXT, and the sizes they give (45_frame_demux.md R147). -/
def extSizes (s : State) : Nat × Nat × State :=
  let f1 := s.readIn (s.sess.inPos + 1)
  let f2 := f1.2.readIn (s.sess.inPos + 2)
  let b1 := f2.2.readIn (s.sess.inPos + 3)
  let b2 := b1.2.readIn (s.sess.inPos + 4)
  (f1.1.toNat * 256 + f2.1.toNat, b1.1.toNat * 256 + b2.1.toNat, b2.2)

theorem extSizes_drawsOnly (s : State) : drawsOnly s (extSizes s).2.2 :=
  drawsOnly_trans (readIn_drawsOnly s _) (drawsOnly_trans (readIn_drawsOnly _ _)
    (drawsOnly_trans (readIn_drawsOnly _ _) (readIn_drawsOnly _ _)))

/-- A read of `IN` sees `IN` and the count of draws alone. -/
theorem readIn_begin (s : State) (a : Nat) :
    ((begin s).readIn a).1 = (s.readIn a).1 ∧ ((begin s).readIn a).2 = begin (s.readIn a).2 := by
  simp only [State.readIn, State.readCell, begin_inp]
  cases s.inp.get? a with
  | some b => exact ⟨rfl, rfl⟩
  | none =>
    refine ⟨by rw [begin_draws], ?_⟩
    rw [begin_eq_record, begin_eq_record]
    rfl

theorem extSizes_begin (s : State) :
    (extSizes (begin s)).1 = (extSizes s).1 ∧ (extSizes (begin s)).2.1 = (extSizes s).2.1 := by
  simp only [extSizes, begin_sess, readIn_begin, and_self]

theorem exec_frameStd_short {s : State} (h : s.inLen < s.sess.inPos + 2) (h0 : Byte) :
    ∃ t, exec (.frameStd h0) s = .next t ∧ faulted .frameHeaderShort s t := by
  show ∃ t, execFrameStd h0 s = _ ∧ _
  refine runElement_raise (d := s.draws) ?_
  rw [begin_inLen, begin_sess, if_pos h, begin_draws]

/-- FRAME_STD with its header present is `frame_start` of its sizes (45_frame_demux.md R146). -/
theorem exec_frameStd {s : State} (h : s.sess.inPos + 2 ≤ s.inLen) (h0 : Byte) :
    ∃ u, drawsOnly (begin s) u ∧ exec (.frameStd h0) s = runElement s fun _ =>
      frameStart s.sess.inPos 2 (h0.toNat * 256 + (s.readIn (s.sess.inPos + 1)).1.toNat) 32768 u := by
  have hd := readIn_drawsOnly (begin s) (s.sess.inPos + 1)
  refine ⟨_, hd, ?_⟩
  show execFrameStd h0 s = _
  refine runElement_congr ?_
  rw [begin_inLen, begin_sess, if_neg (Nat.not_lt.mpr h)]
  simp only [drawsOnly_sess hd, begin_sess, (readIn_begin s _).1]
  rfl

theorem exec_frameExt_short {s : State} (h : s.inLen < s.sess.inPos + 5) :
    ∃ t, exec .frameExt s = .next t ∧ faulted .frameHeaderShort s t := by
  show ∃ t, execFrameExt s = _ ∧ _
  refine runElement_raise (d := s.draws) ?_
  rw [begin_inLen, begin_sess, if_pos h, begin_draws]

/-- FRAME_EXT with its header present is `frame_start` of its sizes (45_frame_demux.md R147). -/
theorem exec_frameExt {s : State} (h : s.sess.inPos + 5 ≤ s.inLen) :
    ∃ u, drawsOnly (begin s) u ∧ exec .frameExt s = runElement s fun _ =>
      frameStart s.sess.inPos 5 (extSizes s).2.1 (extSizes s).1 u := by
  have hd := extSizes_drawsOnly (begin s)
  refine ⟨_, hd, ?_⟩
  show execFrameExt s = _
  refine runElement_congr ?_
  rw [begin_inLen, begin_sess, if_neg (Nat.not_lt.mpr h), ← begin_sess s]
  · show frameStart (extSizes (begin s)).2.2.sess.inPos 5 (extSizes (begin s)).2.1 (extSizes (begin s)).1
      (extSizes (begin s)).2.2 = _
    rw [drawsOnly_sess hd, begin_sess, (extSizes_begin s).1, (extSizes_begin s).2]

section
variable {s u : State} {i : Instr} {a hl bs fs : Nat} (hd : drawsOnly (begin s) u)
  (hexec : exec i s = runElement s fun _ => frameStart a hl bs fs u)
include hd hexec

/-- A frame element whose header passes the checks. -/
theorem exec_frame_ok (hbs : bs ≠ 0) (hfs : fs ≠ 0) (hle : fs ≤ s.sess.decSize - s.sess.produced)
    (hdata : a + hl + bs ≤ s.inLen)
    (hblock : s.sess.headerRead = false ∨ s.sess.blockRem = 0 ∨ s.sess.blockType = 1 ∨ s.sess.blockType = 2
      ∨ s.sess.blockType = 3) : ∃ t, exec i s = .next t ∧ frameStarted a hl bs fs s t := by
  have hsess : u.sess = s.sess := (drawsOnly_sess hd).trans (begin_sess s)
  have hlen : u.inLen = s.inLen := (drawsOnly_inLen hd).trans (begin_inLen s)
  obtain ⟨t, ht, hst⟩ := frameStart_ok (s := u) (a := a) (hl := hl) hbs hfs (hsess ▸ hle) (hlen ▸ hdata)
    (hsess ▸ hblock)
  exact ⟨t, hexec.trans (runElement_ok ht), frameStarted_of_drawsOnly hd hst⟩

/-- The faults of a frame element whose header is present, in their order. -/
theorem exec_frame_faults :
    (bs = 0 ∨ fs = 0 → ∃ t, exec i s = .next t ∧ faulted .frameZeroSize s t)
      ∧ (bs ≠ 0 → fs ≠ 0 → s.sess.decSize - s.sess.produced < fs →
          ∃ t, exec i s = .next t ∧ faulted .frameOverTotal s t)
      ∧ (bs ≠ 0 → fs ≠ 0 → fs ≤ s.sess.decSize - s.sess.produced → s.inLen < a + hl + bs →
          ∃ t, exec i s = .next t ∧ faulted .frameDataShort s t) := by
  have hsess : u.sess = s.sess := (drawsOnly_sess hd).trans (begin_sess s)
  have hlen : u.inLen = s.inLen := (drawsOnly_inLen hd).trans (begin_inLen s)
  rw [hexec, ← hsess, ← hlen]
  exact ⟨fun h => runElement_raise (frameStart_zero h ..), fun hbs hfs h => runElement_raise (frameStart_over hbs hfs h ..),
    fun hbs hfs hle h => runElement_raise (frameStart_short hbs hfs hle h)⟩

end

/-- Settles O43, by the common `frame_start` of both header forms. -/
theorem frameStarts : Obligations.FrameStarts := by
  unfold Obligations.FrameStarts
  refine ⟨fun h0 s hlen hblock => ?_, fun s hlen hblock => ?_⟩
  · intro bs hbs hle hdata
    obtain ⟨u, hd, hexec⟩ := exec_frameStd hlen h0
    exact exec_frame_ok hd hexec hbs (by decide) hle hdata hblock
  · intro f1 f2 b1 b2 fs bs hbs hfs hle hdata
    obtain ⟨u, hd, hexec⟩ := exec_frameExt hlen
    exact exec_frame_ok hd hexec hbs hfs hle hdata hblock

/-- Settles O44, by the order of the checks in `frame_start`. -/
theorem frameFaults : Obligations.FrameFaults := by
  unfold Obligations.FrameFaults
  refine ⟨fun h0 s => ⟨fun h => exec_frameStd_short h h0, fun hlen => ?_⟩,
    fun s => ⟨exec_frameExt_short, fun hlen => ?_⟩⟩
  · obtain ⟨u, hd, hexec⟩ := exec_frameStd hlen h0
    obtain ⟨hzero, hover, hshort⟩ := exec_frame_faults hd hexec
    exact ⟨fun h => hzero (.inl h), fun hbs => hover hbs (by decide), fun hbs => hshort hbs (by decide)⟩
  · obtain ⟨u, hd, hexec⟩ := exec_frameExt hlen
    exact exec_frame_faults hd hexec

end Sys2Proof.Machine
end

section
/-! SUPPORT. The bit reader's fields (41_bit_reader.md R91 to R103): the bits of a fetched word, a field over a word's end,
the realignment. -/

namespace Sys2Proof.Machine

/-! ## The bits of a word -/

/-- The first `k` bits of a word, most significant first, are its upper `k` bits (20_memory.md R53). -/
theorem bitsVal_upper (w : BitVec 16) (real : Bool) {k : Nat} (hk : k ≤ 16) :
    bitsVal ((List.range k).map fun i => ⟨w.getLsbD (15 - i), real⟩) = w.toNat / 2 ^ (16 - k) := by
  induction k with
  | zero =>
    have := w.isLt
    exact (Nat.div_eq_of_lt (by simpa using this)).symm
  | succ k ih =>
    have hpow : 2 ^ (16 - k) = 2 ^ (16 - (k + 1)) * 2 := by rw [← Nat.pow_succ]; congr 1; omega
    have hbit : w.getLsbD (15 - k) = decide (w.toNat / 2 ^ (16 - (k + 1)) % 2 = 1) := by
      rw [BitVec.getLsbD, Nat.testBit_eq_decide_div_mod_eq, show 15 - k = 16 - (k + 1) by omega]
    rw [List.range_succ, List.map_append, bitsVal_append, ih (by omega), hpow, ← Nat.div_div_eq_div_mul]
    simp only [List.map_cons, List.map_nil, bitsVal, List.foldl_cons, List.foldl_nil, List.length_singleton, hbit]
    simp only [decide_eq_true_eq]
    split <;> omega

/-- The bits of a fetched word have its value. -/
theorem bitsVal_wordBits (w : BitVec 16) (real : Bool) : bitsVal (wordBits w real) = w.toNat := by
  rw [wordBits, bitsVal_upper w real (Nat.le_refl 16), Nat.sub_self, Nat.pow_zero, Nat.div_one]

theorem real_of_mem_wordBits {w : BitVec 16} {real : Bool} {b : QBit} (h : b ∈ wordBits w real) : b.real = real := by
  obtain ⟨i, -, rfl⟩ := List.mem_map.mp h
  rfl

/-- The first `n` bits and the others, as quotient and remainder. -/
theorem bitsVal_take_drop (q : List QBit) (n : Nat) :
    bitsVal (q.take n) = bitsVal q / 2 ^ (q.length - n) ∧ bitsVal (q.drop n) = bitsVal q % 2 ^ (q.length - n) := by
  have happ := bitsVal_append (q.take n) (q.drop n)
  have hlt := bitsVal_lt (q.drop n)
  rw [List.take_append_drop, List.length_drop] at happ
  rw [List.length_drop] at hlt
  rw [happ]
  constructor
  · rw [Nat.add_comm, Nat.add_mul_div_right _ _ (Nat.two_pow_pos _), Nat.div_eq_of_lt hlt, Nat.zero_add]
  · rw [Nat.add_comm, Nat.add_mul_mod_self_right, Nat.mod_eq_of_lt hlt]

theorem toNat_word (hi lo : Byte) : (hi ++ lo : BitVec 16).toNat = hi.toNat * 256 + lo.toNat := by
  rw [BitVec.toNat_append, ← Nat.shiftLeft_add_eq_or_of_lt lo.isLt, Nat.shiftLeft_eq]

/-! ## The fetched word -/

theorem frameByte_inside {i : Nat} {s : State} {b : Byte} (h : i < s.sess.frameLen)
    (hb : s.inp.get? (s.sess.frameBase + i) = some b) : frameByte i s = (b, s) :=
  (if_pos h).trans (readIn_some hb)

theorem frameByte_beyond {i : Nat} {s : State} (h : s.sess.frameLen ≤ i) : frameByte i s = (0, s) :=
  if_neg (Nat.not_lt.mpr h)

/-- `fetch` where it reads written bytes: the word's bits are appended (41_bit_reader.md R93). -/
theorem fetchWord_of_bytes {s : State} {lo hi : Byte} (hlo : frameByte s.sess.rdC s = (lo, s))
    (hhi : frameByte (s.sess.rdC + 1) s = (hi, s)) :
    fetchWord s = s.setReader (s.sess.rdC + 2)
      (s.sess.rdQ ++ wordBits (hi ++ lo) (decide (s.sess.rdC < s.sess.frameLen))) := by
  simp only [fetchWord, hlo, hhi]

/-- The frame's bytes do not depend on the reader. -/
theorem frameByte_setReader (i c : Nat) (q : List QBit) (s : State) :
    frameByte i (s.setReader c q) = ((frameByte i s).1, (frameByte i s).2.setReader c q) := by
  have hread (a : Nat) : (s.setReader c q).readIn a = ((s.readIn a).1, (s.readIn a).2.setReader c q) := by
    simp only [State.readIn, State.readCell, State.setReader_inp]
    cases s.inp.get? a <;> rfl
  unfold frameByte
  by_cases h : i < s.sess.frameLen
  · rw [if_pos h, if_pos (id h : i < (s.setReader c q).sess.frameLen)]
    exact hread _
  · rw [if_neg h, if_neg (id h : ¬ i < (s.setReader c q).sess.frameLen)]

/-- A `fetch` appends the same word whatever is buffered. -/
theorem fetchWord_setReader (s : State) : ∃ w, w.length = 16 ∧ ∀ q, fetchWord (s.setReader s.sess.rdC q)
    = (fetchWord s).setReader (s.sess.rdC + 2) (q ++ w) ∧ (fetchWord s).sess.rdQ = s.sess.rdQ ++ w := by
  refine ⟨_, wordBits_length _ _, fun q => ⟨?_, rfl⟩⟩
  simp only [fetchWord, State.setReader_sess, frameByte_setReader]
  rfl

/-! ## Fields -/

/-- A field that the buffered bits hold is read from them alone (41_bit_reader.md R96, R97). -/
theorem readBits_of_buffered {s : State} {n : Nat} (h : n ≤ s.sess.rdQ.length) :
    readBits n s = if (s.sess.rdQ.take n).all (·.real) then
        .ok (bitsVal (s.sess.rdQ.take n)) (s.setReader s.sess.rdC (s.sess.rdQ.drop n))
      else .raise .bitsExhausted s.draws := by
  rw [readBits_eq, ensure_of_le h]
  split
  · next h0 => subst h0; rfl
  · rfl

/-- A field that a fetched word is needed for, from an empty accumulator and written bytes. -/
theorem readBits_of_word {s : State} {n : Nat} {lo hi : Byte} (hq : s.sess.rdQ = []) (h1 : 1 ≤ n) (h16 : n ≤ 16)
    (hc : s.sess.rdC < s.sess.frameLen) (hlo : frameByte s.sess.rdC s = (lo, s))
    (hhi : frameByte (s.sess.rdC + 1) s = (hi, s)) :
    ∃ t, readBits n s = .ok ((hi.toNat * 256 + lo.toNat) / 2 ^ (16 - n)) t
      ∧ t = { s with sess := { s.sess with rdC := s.sess.rdC + 2, rdQ := t.sess.rdQ } }
      ∧ t.sess.rdQ.length = 16 - n
      ∧ bitsVal t.sess.rdQ = (hi.toNat * 256 + lo.toNat) % 2 ^ (16 - n)
      ∧ ∀ b ∈ t.sess.rdQ, b.real = true := by
  have hens : ensure n s = s.setReader (s.sess.rdC + 2) (wordBits (hi ++ lo) true) := by
    rw [ensure_eq_fetchWord (by rw [hq]; exact h1) h16, fetchWord_of_bytes hlo hhi, hq, decide_eq_true hc,
      List.nil_append]
  obtain ⟨hval, hrest⟩ := bitsVal_take_drop (wordBits (hi ++ lo) true) n
  rw [bitsVal_wordBits, toNat_word, wordBits_length] at hval hrest
  have hreal : ((wordBits (hi ++ lo) true).take n).all (·.real) = true :=
    List.all_eq_true.mpr fun b hb => real_of_mem_wordBits (List.mem_of_mem_take hb)
  refine ⟨s.setReader (s.sess.rdC + 2) ((wordBits (hi ++ lo) true).drop n), ?_, rfl, ?_, hrest, fun b hb => ?_⟩
  · rw [readBits_eq, if_neg (by omega), hens, State.setReader_sess, if_pos hreal, hval]
    rfl
  · exact (List.length_drop ..).trans (by rw [wordBits_length])
  · rw [State.setReader_sess] at hb
    exact real_of_mem_wordBits (List.mem_of_mem_drop hb)

/-- At or beyond the data's end a field that the buffered bits do not hold has a bit that is not real. -/
theorem readBits_beyond {s : State} {n : Nat} (h : s.sess.rdQ.length < n) (h16 : n ≤ 16)
    (hc : s.sess.frameLen ≤ s.sess.rdC) : readBits n s = .raise .bitsExhausted s.draws := by
  have hens : ensure n s = s.setReader (s.sess.rdC + 2) (s.sess.rdQ ++ wordBits 0 false) := by
    rw [ensure_eq_fetchWord h h16, fetchWord_of_bytes (frameByte_beyond hc) (frameByte_beyond (by omega)),
      decide_eq_false (by omega)]
    rfl
  have hvirtual : ¬ ((s.sess.rdQ ++ wordBits 0 false).take n).all (·.real) = true := by
    obtain ⟨k, hk⟩ : ∃ k, n - s.sess.rdQ.length = k + 1 := ⟨_, (Nat.succ_pred_eq_of_pos (by omega)).symm⟩
    rw [List.take_append, hk]
    simp [wordBits, List.range_succ_eq_map]
  rw [readBits_eq, if_neg (by omega), hens, State.setReader_sess, if_neg hvirtual]
  rfl

/-- Settles O35, clause by clause: a word fetched for the field, a field beyond the data, a field of buffered bits. -/
theorem readWordBits : Obligations.ReadWordBits := by
  unfold Obligations.ReadWordBits
  refine ⟨fun s n lo hi hq h1 h16 hhi hlo => ?word, fun s n => readBits_beyond, fun s n h => ⟨fun hr => ?_, ?_⟩⟩
  case word =>
    obtain ⟨hc, hhi⟩ | ⟨hc, rfl⟩ := hhi
    · exact readBits_of_word hq h1 h16 (by omega) (frameByte_inside (by omega) hlo) (frameByte_inside hc hhi)
    · exact readBits_of_word hq h1 h16 (by omega) (frameByte_inside (by omega) hlo) (frameByte_beyond (by omega))
  · rw [readBits_of_buffered h, if_pos (List.all_eq_true.mpr hr)]
  · rintro ⟨b, hb, hv⟩
    rw [readBits_of_buffered h, if_neg]
    intro hall
    rw [List.all_eq_true.mp hall b hb] at hv
    cases hv

/-- Behind a field of `m` bits, `ensure(n)` leaves what `ensure(m + n)` before it would have: the word fetched on the way is
the same (41_bit_reader.md R103). -/
theorem ensure_split {m n : Nat} (s : State) (h16 : m + n ≤ 16) :
    (ensure m s).sess.rdQ.take m = (ensure (m + n) s).sess.rdQ.take m
      ∧ ensure n ((ensure m s).setReader (ensure m s).sess.rdC ((ensure m s).sess.rdQ.drop m))
        = (ensure (m + n) s).setReader (ensure (m + n) s).sess.rdC ((ensure (m + n) s).sess.rdQ.drop m) := by
  obtain hall | hall := Nat.lt_or_ge s.sess.rdQ.length (m + n)
  · rw [ensure_eq_fetchWord hall h16]
    obtain hm | hm := Nat.lt_or_ge s.sess.rdQ.length m
    · rw [ensure_eq_fetchWord hm (by omega), ensure_of_le]
      · exact ⟨rfl, rfl⟩
      · rw [State.setReader_sess, List.length_drop, fetchWord_length]
        omega
    · obtain ⟨w, -, hw⟩ := fetchWord_setReader s
      obtain ⟨hset, hq⟩ := hw (s.sess.rdQ.drop m)
      rw [ensure_of_le hm, ensure_eq_fetchWord (by rw [State.setReader_sess, List.length_drop]; omega) (by omega),
        hset, hq, List.take_append_of_le_length hm, List.drop_append_of_le_length hm]
      exact ⟨rfl, rfl⟩
  · rw [ensure_of_le hall, ensure_of_le (by omega), ensure_of_le]
    · exact ⟨rfl, rfl⟩
    · rw [State.setReader_sess, List.length_drop]
      omega

/-- A field that is read is what the ensured bits say. -/
theorem readBits_eq_ok {n v : Nat} {s t : State} (h : readBits n s = .ok v t) :
    ((ensure n s).sess.rdQ.take n).all (·.real) = true ∧ v = bitsVal ((ensure n s).sess.rdQ.take n)
      ∧ t = (ensure n s).setReader (ensure n s).sess.rdC ((ensure n s).sess.rdQ.drop n) := by
  rw [readBits_eq] at h
  split at h
  · next h0 => subst h0; cases h; exact ⟨rfl, rfl, rfl⟩
  · split at h
    · next hr => cases h; exact ⟨hr, rfl, rfl⟩
    · cases h

/-- A field whose ensured bits are real is read from them. -/
theorem readBits_of_real {n : Nat} {s : State} (h : ((ensure n s).sess.rdQ.take n).all (·.real) = true) :
    readBits n s = .ok (bitsVal ((ensure n s).sess.rdQ.take n))
      ((ensure n s).setReader (ensure n s).sess.rdC ((ensure n s).sess.rdQ.drop n)) := by
  rw [readBits_eq, if_pos h]
  split
  · next h0 => subst h0; rfl
  · rfl

/-- Settles O36, by the bits that both fields are read from. -/
theorem readBitsSplit : Obligations.ReadBitsSplit := by
  unfold Obligations.ReadBitsSplit
  intro m n s s1 s2 v w h16 hv hw
  obtain ⟨hreal, rfl, rfl⟩ := readBits_eq_ok hv
  obtain ⟨hreal', rfl, rfl⟩ := readBits_eq_ok hw
  obtain ⟨htake, hens⟩ := ensure_split s h16
  have hlen := ensure_le_length (m + n) s
  rw [htake] at hreal ⊢
  rw [hens] at hreal' ⊢
  simp only [State.setReader_sess] at hreal' ⊢
  have hbits : (ensure (m + n) s).sess.rdQ.take (m + n)
      = (ensure (m + n) s).sess.rdQ.take m ++ ((ensure (m + n) s).sess.rdQ.drop m).take n := List.take_add ..
  rw [readBits_of_real (by rw [hbits, List.all_append, hreal, hreal', Bool.and_self]), hbits, bitsVal_append,
    List.length_take, List.length_drop, Nat.min_eq_left (by omega), List.drop_drop]
  rfl

/-! ## The realignment and the measure -/

/-- Where `align16` leaves the cursor, by what was buffered (41_bit_reader.md R98). -/
theorem align16_rdC {s : State} (h : s.sess.rdQ.length ≤ 31) : (align16 s).sess.rdC = alignedCursor s.sess := by
  unfold align16 alignedCursor
  obtain hlt | hge := Nat.lt_or_ge s.sess.rdQ.length 16
  · rw [ensure_eq_fetchWord hlt (Nat.le_refl 16)]
    simp only [State.setReader_sess, fetchWord_length, fetchWord_rdC]
    split_ifs <;> omega
  · rw [ensure_of_le hge]
    simp only [State.setReader_sess]
    split_ifs <;> omega

/-- The buffered bits of a reader all came from fetched words, so that the cursor keeps its parity. -/
theorem alignedCursor_parity {t : Session} (h : t.rdQ.length ≤ 8 * t.rdC) : alignedCursor t % 2 = t.rdC % 2 := by
  unfold alignedCursor
  split
  · omega
  · split
    · rfl
    · omega

/-- Settles O37, by the measure of each primitive. -/
theorem readerProgress_laws : Obligations.ReaderProgress := by
  unfold Obligations.ReaderProgress
  refine ⟨fetchWord_progress, fun n s t v h => ?bits, fun s t b h => ?byte, fun s h31 hfetched => ?align, fun s => ?reinit⟩
  case bits =>
    have hp := readBits_post n s
    rw [h] at hp
    exact ⟨hp.1, hp.2.2.1⟩
  case byte =>
    have hp := readByte_post s
    rw [h] at hp
    obtain ⟨hread, hc, hq, -⟩ := hp
    refine ⟨hread, ?_⟩
    rw [readerProgress, readerProgress, hc, hq]
    push_cast
    ring
  case align =>
    have hc := align16_rdC h31
    refine ⟨align16_readerOnly s, rfl, hc, alignedCursor_parity hfetched, ?_, ?_⟩ <;>
    · simp only [readerProgress, hc, align16_rdQ, List.length_nil, alignedCursor]
      split_ifs <;> omega
  case reinit =>
    simp only [readerProgress, reinit_sess, List.length_nil]
    split <;> omega

end Sys2Proof.Machine
end

section
/-! SUPPORT. The canonical code (42_huffman.md R107 to R109): the interval of a symbol found is the one that the order of the
symbols gives, and no two intervals meet. And the position slots (30_encoding.md R77). -/

namespace Sys2Proof.Machine

/-! ## The order of the coded symbols -/

theorem codedBefore_iff (lens : List Nat) (j i : Nat) :
    codedBefore lens j i = true
      ↔ 0 < lens.getD j 0 ∧ (lens.getD j 0 < lens.getD i 0 ∨ lens.getD j 0 = lens.getD i 0 ∧ j < i) := by
  simp [codedBefore]

theorem codedBefore_trichotomy {lens : List Nat} {i j : Nat} (hi : 0 < lens.getD i 0) (hj : 0 < lens.getD j 0)
    (hne : i ≠ j) : codedBefore lens i j = true ∨ codedBefore lens j i = true := by
  rw [codedBefore_iff, codedBefore_iff]
  omega

/-- A sum whose terms do not fall and one of whose terms rises by `c`. -/
theorem sum_map_add_le {l : List Nat} {f g : Nat → Nat} {i c : Nat} (hi : i ∈ l) (hle : ∀ k ∈ l, f k ≤ g k)
    (hc : f i + c ≤ g i) : (l.map f).sum + c ≤ (l.map g).sum := by
  induction l with
  | nil => simp at hi
  | cons x xs ih =>
    simp only [List.map_cons, List.sum_cons]
    have hx := hle x (List.mem_cons_self ..)
    have hxs : ∀ k ∈ xs, f k ≤ g k := fun k hk => hle k (List.mem_cons_of_mem _ hk)
    rcases List.mem_cons.mp hi with rfl | hi
    · have := List.sum_le_sum hxs
      omega
    · have := ih hi hxs
      omega

/-- The interval of a symbol ends before that of any later one begins. -/
theorem canonLow_add_le {lens : List Nat} {i j : Nat} (hi : i < lens.length) (h : codedBefore lens i j = true) :
    canonLow lens i + 2 ^ (16 - lens.getD i 0) ≤ canonLow lens j := by
  refine sum_map_add_le (List.mem_range.mpr hi) (fun k _ => ?_) ?_
  · split
    · next hk =>
      rw [if_pos]
      rw [codedBefore_iff] at *
      omega
    · exact Nat.zero_le _
  · have hself : ¬ codedBefore lens i i = true := by
      rw [codedBefore_iff]
      omega
    rw [if_neg hself, if_pos h, Nat.zero_add]

theorem lt_length_of_getD_pos {lens : List Nat} {i : Nat} (h : 0 < lens.getD i 0) : i < lens.length := by
  by_contra hge
  rw [List.getD_eq_default _ _ (Nat.le_of_not_lt hge)] at h
  omega

/-- No value lies in two intervals (42_huffman.md R107). -/
theorem inInterval_unique {lens : List Nat} {i j v : Nat} (hi : inInterval lens i v) (hj : inInterval lens j v) :
    j = i := by
  obtain ⟨hi0, hilo, hihi⟩ := hi
  obtain ⟨hj0, hjlo, hjhi⟩ := hj
  by_contra hne
  rcases codedBefore_trichotomy hi0 hj0 (Ne.symm hne) with h | h
  · have := canonLow_add_le (lt_length_of_getD_pos hi0) h
    omega
  · have := canonLow_add_le (lt_length_of_getD_pos hj0) h
    omega

/-! ## The scan and the order -/

/-- A symbol found by the scan of the lengths `ls`: the lengths scanned before its own, and its interval by the counts of
their symbols. -/
theorem scanLengths_interval {lens : List Nat} {v : Nat} {ls : List Nat} {pos i l : Nat} (hv : pos ≤ v)
    (h : scanLengths lens v ls pos = some (i, l)) :
    ∃ before after, ls = before ++ l :: after ∧ i < lens.length ∧ lens.getD i 0 = l
      ∧ pos + (before.map fun x => lens.count x * 2 ^ (16 - x)).sum + (lens.take i).count l * 2 ^ (16 - l) ≤ v
      ∧ v < pos + (before.map fun x => lens.count x * 2 ^ (16 - x)).sum + (lens.take i).count l * 2 ^ (16 - l)
          + 2 ^ (16 - l) := by
  induction ls generalizing pos with
  | nil => cases h
  | cons x xs ih =>
    unfold scanLengths at h
    split at h
    · next sym hs =>
      obtain ⟨j, h1, h2, h3, h4, h5⟩ := scanSymbols_hit hv hs
      cases h
      rw [Nat.zero_add] at h1
      subst h1
      exact ⟨[], xs, rfl, h2, h3, by simpa using h4, by simpa using h5⟩
    · next pos' hs =>
      obtain ⟨hpos, hle⟩ := scanSymbols_past hv hs
      obtain ⟨before, after, h1, h2, h3, h4, h5⟩ := ih hle h
      refine ⟨x :: before, after, by rw [h1]; rfl, h2, h3, ?_, ?_⟩ <;>
      · simp only [List.map_cons, List.sum_cons]
        omega

/-- The code space of the symbols of the lengths `before`, and of those of length `l` before index `i`, summed over the
symbols and gathered by length. -/
theorem sum_range_getD (lens before : List Nat) (l c i : Nat) :
    ((List.range lens.length).map fun j =>
        (if lens.getD j 0 ∈ before then 2 ^ (16 - lens.getD j 0) else 0)
          + (if lens.getD j 0 = l ∧ j < i then c else 0)).sum
      = (lens.map fun x => if x ∈ before then 2 ^ (16 - x) else 0).sum + (lens.take i).count l * c := by
  induction lens generalizing i with
  | nil => simp
  | cons x xs ih =>
    rw [List.length_cons, List.range_succ_eq_map, List.map_cons, List.sum_cons, List.map_map, List.map_cons,
      List.sum_cons]
    cases i with
    | zero =>
      have htail := ih 0
      simp only [Nat.not_lt_zero, and_false, if_false, Nat.add_zero, List.take_zero, List.count_nil,
        Nat.zero_mul] at htail ⊢
      rw [← htail]
      rfl
    | succ i =>
      have htail := ih i
      simp only [Function.comp_def, List.getD_cons_succ, List.getD_cons_zero, Nat.succ_eq_add_one,
        Nat.add_lt_add_iff_right, Nat.zero_lt_succ, and_true] at htail ⊢
      rw [htail, List.take_succ_cons, List.count_cons]
      simp only [beq_iff_eq, Nat.add_mul, ite_mul, Nat.one_mul, Nat.zero_mul]
      omega

/-- The counts of the lengths `before` as a sum over the symbols. -/
theorem sum_count_eq_sum_mem (lens : List Nat) {before : List Nat} (h : before.Nodup) :
    (before.map fun x => lens.count x * 2 ^ (16 - x)).sum
      = (lens.map fun x => if x ∈ before then 2 ^ (16 - x) else 0).sum := by
  induction lens with
  | nil => simp
  | cons x xs ih => rw [sum_count_cons _ _ _ h, ih, List.map_cons, List.sum_cons]

/-- `lo_T(i)` by the counts of the scan: the shorter codes, and those of the same length before (42_huffman.md R107). -/
theorem canonLow_eq {lens before : List Nat} {i l : Nat} (hi : lens.getD i 0 = l) (hnd : before.Nodup)
    (hbefore : ∀ x, x ≤ 16 → (x ∈ before ↔ 0 < x ∧ x < l)) (hl : 0 < l) (hlens : ∀ x ∈ lens, x ≤ 16) :
    canonLow lens i
      = (before.map fun x => lens.count x * 2 ^ (16 - x)).sum + (lens.take i).count l * 2 ^ (16 - l) := by
  rw [sum_count_eq_sum_mem lens hnd, ← sum_range_getD]
  unfold canonLow
  congr 1
  refine List.map_congr_left fun j hj => ?_
  have hjlen : j < lens.length := List.mem_range.mp hj
  have hj16 : lens.getD j 0 ≤ 16 := by
    rw [List.getD_eq_getElem _ _ hjlen]
    exact hlens _ (List.getElem_mem hjlen)
  simp only [codedBefore_iff, hi, hbefore _ hj16]
  obtain hlt | heq | hgt := Nat.lt_trichotomy (lens.getD j 0) l
  · have hne : ¬ (lens.getD j 0 = l ∧ j < i) := by omega
    rw [if_neg hne, Nat.add_zero]
    split_ifs <;> omega
  · have hne : ¬ (0 < lens.getD j 0 ∧ lens.getD j 0 < l) := by omega
    rw [if_neg hne, Nat.zero_add, heq]
    split_ifs <;> omega
  · rw [if_neg (by omega), if_neg (by omega), if_neg (by omega)]

/-- The symbol found by the search has its own length, and the value in its interval. -/
theorem findSymbol_interval {lens : List Nat} {v i l : Nat} (hlens : ∀ x ∈ lens, x ≤ 16)
    (h : findSymbol lens v = some (i, l)) : i < lens.length ∧ lens.getD i 0 = l ∧ inInterval lens i v := by
  obtain ⟨before, after, hls, hi, hget, hlo, hhi⟩ := scanLengths_interval (Nat.zero_le v) h
  have hsorted : (before ++ l :: after).Pairwise (· < ·) := hls ▸ by decide
  obtain ⟨hbefore, hafter, hcross⟩ := List.pairwise_append.mp hsorted
  have hmem (x : Nat) : x ∈ before ++ l :: after ↔ 1 ≤ x ∧ x ≤ 16 := by
    rw [← hls]
    simp only [List.mem_cons, List.not_mem_nil, or_false]
    constructor <;> intro hx <;> omega
  have hl : 1 ≤ l ∧ l ≤ 16 := (hmem l).mp (List.mem_append_right _ (List.mem_cons_self ..))
  have hiff (x : Nat) (hx : x ≤ 16) : x ∈ before ↔ 0 < x ∧ x < l := by
    constructor
    · intro hb
      have := (hmem x).mp (List.mem_append_left _ hb)
      exact ⟨this.1, hcross x hb l (List.mem_cons_self ..)⟩
    · rintro ⟨h0, hlt⟩
      rcases List.mem_append.mp ((hmem x).mpr ⟨h0, hx⟩) with hb | hb
      · exact hb
      · rcases List.mem_cons.mp hb with rfl | hb
        · omega
        · have := (List.pairwise_cons.mp hafter).1 x hb
          omega
  have hlow := canonLow_eq hget (hbefore.imp Nat.ne_of_lt) hiff hl.1 hlens
  rw [Nat.zero_add, ← hlow] at hlo hhi
  exact ⟨hi, hget, hget ▸ hl.1, hlo, hget ▸ hhi⟩

/-- Settles O38: the search finds a symbol in every complete tree, its interval holds the value, and intervals do not meet. -/
theorem canonicalCode : Obligations.CanonicalCode := by
  unfold Obligations.CanonicalCode
  intro lens v hlens hk hv
  obtain ⟨i, l, hf, -⟩ := findSymbol_of_complete hlens hk hv
  obtain ⟨hi, hget, hin⟩ := findSymbol_interval hlens hf
  exact ⟨i, hi, hin, hget ▸ hf, fun j hj => inInterval_unique hin hj⟩

/-! ## The symbol decode -/

/-- A decode from a tree that is not empty looks at 16 ensured bits and removes the code found (42_huffman.md R108). -/
theorem decodeSymbol_of_findSymbol {tr : Tree} {s : State} {i l : Nat} (hk : kraft (tr.lens s) ≠ 0)
    (hf : findSymbol (tr.lens s) (bitsVal ((ensure 16 s).sess.rdQ.take 16)) = some (i, l)) :
    decodeSymbol tr s = if ((ensure 16 s).sess.rdQ.take l).all (·.real) then
        .ok i ((ensure 16 s).setReader (ensure 16 s).sess.rdC ((ensure 16 s).sess.rdQ.drop l))
      else .raise .bitsExhausted (ensure 16 s).draws := by
  rw [decodeSymbol, if_neg hk, peek, if_neg (Nat.not_lt.mpr (ensure_le_length 16 s)), Res.ok_bind]
  simp only [hf, remove]
  split <;> rfl

theorem bitsVal_peek16_lt (s : State) : bitsVal ((ensure 16 s).sess.rdQ.take 16) < 65536 := by
  have h := bitsVal_lt ((ensure 16 s).sess.rdQ.take 16)
  rw [List.length_take, Nat.min_eq_left (ensure_le_length 16 s)] at h
  exact h

/-- Settles O39, by the symbol that the canonical code gives the 16 bits. -/
theorem decodeSymbolResult : Obligations.DecodeSymbolResult := by
  unfold Obligations.DecodeSymbolResult
  refine fun tr s hlens => ⟨fun hk => if_pos hk, fun hk i hin => ?_⟩
  obtain ⟨j, -, -, hf, huniq⟩ := canonicalCode (tr.lens s) _ hlens hk (bitsVal_peek16_lt s)
  obtain rfl := huniq i hin
  have hdec := decodeSymbol_of_findSymbol (by rw [hk]; decide) hf
  exact ⟨fun hr => hdec.trans (if_pos hr), fun hr => hdec.trans (if_neg (by rw [hr]; decide))⟩

/-! ## Position slots -/

theorem slotBase_succ (slot : Nat) : slotBase (slot + 1) = slotBase slot + 2 ^ extraBits slot := rfl

theorem slotBase_mono {a b : Nat} (h : a ≤ b) : slotBase a ≤ slotBase b := by
  induction h with
  | refl => exact Nat.le_refl _
  | step _ ih => exact Nat.le_trans ih (Nat.le_add_right ..)

/-- The last position slot ends where the window does (30_encoding.md R77). -/
theorem slotBase_numPositionSlots {p : Params} (h : p.valid = true) :
    slotBase p.numPositionSlots = p.windowSize := by
  have hw : 15 ≤ p.windowBits ∧ p.windowBits ≤ 18 := by
    simp only [Params.valid, Bool.and_eq_true, decide_eq_true_eq] at h
    omega
  obtain ⟨hlo, hhi⟩ := hw
  unfold Params.numPositionSlots Params.windowSize
  interval_cases p.windowBits <;> decide

/-- Every value between two bases lies in one slot. -/
theorem exists_slot {y n : Nat} (h3 : slotBase 3 ≤ y) (hn : 3 ≤ n) (hy : y < slotBase n) :
    ∃ slot, 3 ≤ slot ∧ slot < n ∧ slotBase slot ≤ y ∧ y < slotBase (slot + 1) := by
  induction n, hn using Nat.le_induction with
  | base => omega
  | succ n hn ih =>
    obtain hlt | hge := Nat.lt_or_ge y (slotBase n)
    · obtain ⟨slot, h1, h2, h⟩ := ih hlt
      exact ⟨slot, h1, by omega, h⟩
    · exact ⟨n, hn, Nat.lt_succ_self n, hge, hy⟩

/-- Settles O54, by the bases that rise from slot to slot. -/
theorem slotRanges : Obligations.SlotRanges := by
  unfold Obligations.SlotRanges
  have h3 : slotBase 3 = 3 := by decide
  have h36 : slotBase 36 = 2 ^ 18 := by decide
  refine ⟨fun _ => rfl, ⟨rfl, slotBase_succ⟩, fun p hp slot v hslot hlt hv => ?_, fun off h1 hoff => ?_⟩
  · have hlo := slotBase_mono hslot
    have hhi := slotBase_mono (Nat.succ_le_of_lt hlt)
    rw [Nat.succ_eq_add_one, slotBase_succ, slotBase_numPositionSlots hp] at hhi
    omega
  · obtain ⟨slot, hslot, hlt, hle, hgt⟩ := exists_slot (y := off + 2) (n := 36) (by omega) (by decide) (by omega)
    rw [slotBase_succ] at hgt
    have hbase := slotBase_mono hslot
    refine ⟨(slot, off + 2 - slotBase slot), ⟨hslot, hlt, by dsimp only; omega, by dsimp only; omega⟩, ?_⟩
    rintro ⟨slot', v'⟩ ⟨hslot', -, hv', hoff'⟩
    dsimp only at hslot' hv' hoff'
    have hbase' := slotBase_mono hslot'
    have hnext' := slotBase_succ slot'
    have hnext := slotBase_succ slot
    obtain hs | rfl | hs := Nat.lt_trichotomy slot' slot
    · have := slotBase_mono (Nat.succ_le_of_lt hs)
      rw [Nat.succ_eq_add_one] at this
      omega
    · exact Prod.ext rfl (by show v' = _; omega)
    · have := slotBase_mono (Nat.succ_le_of_lt hs)
      rw [Nat.succ_eq_add_one] at this
      omega

end Sys2Proof.Machine
end

section
/-! SUPPORT. What the stream header, the block headers and the tree descriptions do (43_lzx_blocks.md R113 to R128), as
equations in the state the element is run in. -/

namespace Sys2Proof.Machine

/-! ## Reads inside an element -/

/-- The state behind reads that began with the element, by what varies: the reader and the count of draws. -/
theorem readerOnly_begin_exists {s t : State} (h : readerOnly (begin s) t) :
    ∃ c q d, t = { s with
      pend := some ⟨s.seen, awaited s⟩
      draws := d
      sess := { s.sess with rdC := c, rdQ := q } } :=
  ⟨_, _, _, readerOnly_begin_eq h⟩

theorem readBits_lt {n v : Nat} {s t : State} (h : readBits n s = .ok v t) : v < 2 ^ n := by
  have hp := readBits_post n s
  rw [h] at hp
  exact hp.2.1

theorem readFields_raise_eq {n k d : Nat} {s : State} {e : SessionError} (h : readFields n k s = .raise e d) :
    e = .bitsExhausted := by
  have hp := readFields_post n k s
  rw [h] at hp
  exact hp

/-! ## Stream header -/

theorem exec_e8Off (s : State) : exec .e8Off s = .next { s with
    pend := none
    e8Present := false
    sess := { s.sess with e8Present := false, e8Size := 0, headerRead := true, ds := .blockHdr } } := by
  show execE8Off s = _
  refine runElement_ok ?_
  rw [begin_eq_record]
  rfl

theorem exec_e8On {s s1 s2 : State} {hi lo : Nat} (hhi : readBits 16 (begin s) = .ok hi s1)
    (hlo : readBits 16 s1 = .ok lo s2) : exec .e8On s = .next { s with
      pend := none
      e8FileSize := BitVec.ofNat 32 (hi * 65536 + lo)
      e8Present := true
      draws := s2.draws
      sess := { s.sess with
        rdC := s2.sess.rdC, rdQ := s2.sess.rdQ
        e8Present := true, e8Size := BitVec.ofNat 32 (hi * 65536 + lo), headerRead := true, ds := .blockHdr } } := by
  obtain ⟨c, q, d, rfl⟩ := readerOnly_begin_exists
    (readerOnly_trans (readBits_ok_readerOnly hhi) (readBits_ok_readerOnly hlo))
  show execE8On s = _
  refine runElement_ok ?_
  rw [hhi, Res.ok_bind, hlo]
  rfl

/-- Settles O45, by the bit and the two halves. -/
theorem streamHeader : Obligations.StreamHeader := by
  unfold Obligations.StreamHeader
  refine ⟨exec_e8Off, fun s s1 s2 hi lo hhi hlo => ⟨_, ?_, exec_e8On hhi hlo⟩, fun s s1 hi => ⟨fun e d h => ?_, fun hhi e d h => ?_⟩⟩
  · have h1 := readBits_lt hhi
    have h2 := readBits_lt hlo
    rw [BitVec.toNat_ofNat, Nat.mod_eq_of_lt (by omega)]
  · show ∃ t, execE8On s = _ ∧ _
    refine runElement_raise (d := d) ?_
    rw [h, readBits_raise_eq h, Res.raise_bind]
  · show ∃ t, execE8On s = _ ∧ _
    refine runElement_raise (d := d) ?_
    rw [hhi, Res.ok_bind, h, readBits_raise_eq h, Res.raise_bind]

/-! ## Block headers -/

theorem readBlockLen_ok {s s1 s2 : State} {hi lo : Nat} (hhi : readBits 16 s = .ok hi s1)
    (hlo : readBits 8 s1 = .ok lo s2) : readBlockLen s = .ok (hi * 256 + lo) s2 := by
  rw [readBlockLen, hhi, Res.ok_bind, hlo, Res.ok_bind]

/-- A block header whose body follows in the same step (43_lzx_blocks.md R117 to R119). -/
theorem runElement_blockHeader {s s1 s2 : State} {hi lo : Nat} (c : Nat → Ctx)
    (hhi : readBits 16 (begin s) = .ok hi s1) (hlo : readBits 8 s1 = .ok lo s2) :
    runElement s (fun s => (readBlockLen s).bind fun n s => .ok () (await (c n) s)) = .next { s with
      pend := some ⟨s.seen, c (hi * 256 + lo)⟩
      draws := s2.draws
      sess := { s.sess with rdC := s2.sess.rdC, rdQ := s2.sess.rdQ } } := by
  obtain ⟨x, q, d, rfl⟩ := readerOnly_begin_exists
    (readerOnly_trans (readBits_ok_readerOnly hhi) (readBits_ok_readerOnly hlo))
  refine runElement_ok ?_
  rw [readBlockLen_ok hhi hlo]
  rfl

/-- The four block headers begin with the 24 bits of the length (43_lzx_blocks.md R115). -/
theorem exec_blockHeader_eq {i : Instr}
    (hi : i = .blkVerbatim ∨ i = .blkAligned ∨ i = .blkUncomp ∨ ∃ t, i = .blkInvalid t) :
    ∃ f : Nat → State → Res Unit, ∀ s, exec i s = runElement s fun s => (readBlockLen s).bind f := by
  obtain rfl | rfl | rfl | ⟨t, rfl⟩ := hi
  · exact ⟨_, fun _ => rfl⟩
  · exact ⟨_, fun _ => rfl⟩
  · exact ⟨_, fun _ => rfl⟩
  · exact ⟨_, fun _ => rfl⟩

/-- Settles O46: the length by its two fields, then the row's own end. -/
theorem blockHeaders : Obligations.BlockHeaders := by
  unfold Obligations.BlockHeaders
  refine ⟨fun s s1 s2 hi lo hhi hlo => ⟨?_, ?_, ?_, fun t => ?_⟩, fun s s1 hi i hrow => ?_⟩
  · exact runElement_blockHeader (fun n => .pretree ⟨1, n⟩ .mainLow) hhi hlo
  · exact runElement_blockHeader (fun n => .alignedLens ⟨2, n⟩) hhi hlo
  · exact runElement_blockHeader (fun n => .uncompAlignR ⟨3, n⟩) hhi hlo
  · show ∃ u, execBlkInvalid t s = _ ∧ _
    refine runElement_raise (d := s2.draws) ?_
    rw [readBlockLen_ok hhi hlo, Res.ok_bind]
  · obtain ⟨f, hexec⟩ := exec_blockHeader_eq hrow
    rw [hexec]
    refine ⟨fun e d h => runElement_raise (d := d) ?_, fun hhi e d h => runElement_raise (d := d) ?_⟩
    · rw [readBlockLen, h, readBits_raise_eq h, Res.raise_bind, Res.raise_bind]
    · rw [readBlockLen, hhi, Res.ok_bind, h, readBits_raise_eq h, Res.raise_bind, Res.raise_bind]

/-! ## The lengths of the aligned tree and of the pretree -/

theorem readFields_succ (n k : Nat) (s : State) : readFields n (k + 1) s =
    (readBits n s).bind fun v s => (readFields n k s).bind fun vs s => .ok (v :: vs) s := rfl

/-- The first entry that a pass writes is before its last (30_encoding.md R72). -/
theorem Pass.first_lt_last {cfg : Params} (h : cfg.valid = true) (p : Pass) : p.first < p.last cfg := by
  simp only [Params.valid, Bool.and_eq_true, Bool.or_eq_true, decide_eq_true_eq, beq_iff_eq] at h
  cases p with
  | mainLow => exact (by decide : (0 : Nat) < 256)
  | mainHigh =>
    simp only [Pass.first, Pass.last, Params.mainElements, Params.numPositionSlots]
    omega
  | lengths =>
    simp only [Pass.first, Pass.last]
    omega

section
variable {s s1 : State} {h : BlockHdr} {p : Pass} {ls : List Nat}

theorem exec_alignedLens_ok (haw : awaited s = .alignedLens h) (hls : readFields 3 8 (begin s) = .ok ls s1)
    (hk : kraft ls = 65536 ∨ kraft ls = 0) : exec .alignedLens s = .next { s with
      pend := some ⟨s.seen, .pretree h .mainLow⟩
      draws := s1.draws
      sess := { s.sess with rdC := s1.sess.rdC, rdQ := s1.sess.rdQ, alLen := ls } } := by
  obtain ⟨c, q, d, rfl⟩ := readerOnly_begin_exists (readFields_ok_readerOnly hls)
  show execAlignedLens s = _
  refine runElement_ok ?_
  simp only [awaited_begin, haw]
  rw [Config.alignedSymbols, hls, Res.ok_bind, build_eq_ok (by exact hk)]
  rfl

theorem exec_alignedLens_invalid (haw : awaited s = .alignedLens h) (hls : readFields 3 8 (begin s) = .ok ls s1)
    (hcomplete : kraft ls ≠ 65536) (hempty : kraft ls ≠ 0) :
    ∃ t, exec .alignedLens s = .next t ∧ faulted .alignedInvalid s t := by
  show ∃ t, execAlignedLens s = _ ∧ _
  refine runElement_raise (d := s1.draws) ?_
  simp only [awaited_begin, haw]
  rw [Config.alignedSymbols, hls, Res.ok_bind, build_eq_raise (by exact hcomplete) (by exact hempty)]
  rfl

theorem exec_alignedLens_cut {e : SessionError} {d : Nat} (haw : awaited s = .alignedLens h)
    (hls : readFields 3 8 (begin s) = .raise e d) : ∃ t, exec .alignedLens s = .next t ∧ faulted .bitsExhausted s t := by
  show ∃ t, execAlignedLens s = _ ∧ _
  refine runElement_raise (d := d) ?_
  simp only [awaited_begin, haw]
  rw [Config.alignedSymbols, hls, readFields_raise_eq hls, Res.raise_bind]

theorem exec_pretree_ok (hv : s.cfg.valid = true) (haw : awaited s = .pretree h p)
    (hls : readFields 4 20 (begin s) = .ok ls s1) (hk : kraft ls = 65536 ∨ kraft ls = 0) :
    exec .pretree s = .next { s with
      pend := some ⟨s.seen, .preSym h p p.first⟩
      draws := s1.draws
      sess := { s.sess with rdC := s1.sess.rdC, rdQ := s1.sess.rdQ, preLen := ls } } := by
  obtain ⟨c, q, d, rfl⟩ := readerOnly_begin_exists (readFields_ok_readerOnly hls)
  show execPretree s = _
  refine runElement_ok ?_
  simp only [awaited_begin, haw]
  rw [Config.pretreeSymbols, hls, Res.ok_bind, build_eq_ok (by exact hk), Res.ok_bind, passContinue,
    if_pos (Pass.first_lt_last hv p)]
  rfl

theorem exec_pretree_invalid (haw : awaited s = .pretree h p) (hls : readFields 4 20 (begin s) = .ok ls s1)
    (hcomplete : kraft ls ≠ 65536) (hempty : kraft ls ≠ 0) :
    ∃ t, exec .pretree s = .next t ∧ faulted .pretreeInvalid s t := by
  show ∃ t, execPretree s = _ ∧ _
  refine runElement_raise (d := s1.draws) ?_
  simp only [awaited_begin, haw]
  rw [Config.pretreeSymbols, hls, Res.ok_bind, build_eq_raise (by exact hcomplete) (by exact hempty)]
  rfl

theorem exec_pretree_cut {e : SessionError} {d : Nat} (haw : awaited s = .pretree h p)
    (hls : readFields 4 20 (begin s) = .raise e d) : ∃ t, exec .pretree s = .next t ∧ faulted .bitsExhausted s t := by
  show ∃ t, execPretree s = _ ∧ _
  refine runElement_raise (d := d) ?_
  simp only [awaited_begin, haw]
  rw [Config.pretreeSymbols, hls, readFields_raise_eq hls, Res.raise_bind]

end

/-- Settles O48: the fields by the recursion of the read, then the build of what they give. -/
theorem treeLengths : Obligations.TreeLengths := by
  unfold Obligations.TreeLengths
  refine ⟨fun n s => ⟨rfl, fun k => ⟨fun v s1 vs s2 hv hvs => ?_, fun e d h => ?_, fun v s1 e d hv h => ?_⟩⟩,
    fun s s1 h ls haw hls => ⟨exec_alignedLens_ok haw hls, exec_alignedLens_invalid haw hls⟩,
    fun s s1 h p ls hval haw hls => ⟨fun hk => ?_, exec_pretree_invalid haw hls⟩,
    fun s => ⟨fun h e d => exec_alignedLens_cut, fun h p e d => exec_pretree_cut⟩⟩
  · rw [readFields_succ, hv, Res.ok_bind, hvs, Res.ok_bind]
  · rw [readFields_succ, h, Res.raise_bind]
  · rw [readFields_succ, hv, Res.ok_bind, h, Res.raise_bind]
  · rw [exec_pretree_ok hval haw hls hk]
    cases p <;> rfl

/-! ## The runs of a pass -/

/-- A pretree symbol whose run stays inside its pass is the writing of that run, its footers read with the reader alone. -/
theorem exec_of_preRun {i : Instr} {h : BlockHdr} {p : Pass} {x k v : Nat} {s s1 : State}
    (haw : awaited s = .preSym h p x) (hrun : preRun p x i s k v s1) (hle : x + k ≤ p.last s.cfg) :
    readerOnly (begin s) s1 ∧ exec i s = runElement s fun _ => passWrite h p x k v s1 := by
  have hold (t : State) (hread : readerOnly (begin s) t) : oldLength p x t = (p.arr s).getD x 0 := by
    rw [oldLength, readerOnly_arr hread]
    cases p <;> simp only [Pass.arr, begin_sess]
  unfold preRun at hrun
  split at hrun
  · next z =>
    obtain ⟨rfl, hv, rfl⟩ := hrun
    refine ⟨readerOnly_refl _, ?_⟩
    show execPreDelta z s = _
    refine runElement_congr ?_
    have hval : deltaMod17 (oldLength p x (begin s)) z.toNat = v := by
      rw [hold _ (readerOnly_refl _)]
      exact Int.natCast_inj.mp ((deltaMod17_eq _ _).trans hv.symm)
    simp only [awaited_begin, haw, hval]
  · obtain ⟨f, hf, rfl, rfl⟩ := hrun
    have hread := readBits_ok_readerOnly hf
    refine ⟨hread, ?_⟩
    show execPreZeroShort s = _
    refine runElement_congr ?_
    simp only [zeroRun, awaited_begin, haw, hf, Res.ok_bind]
    rw [readerOnly_cfg hread, begin_cfg, if_neg (Nat.not_lt.mpr hle)]
  · obtain ⟨f, hf, rfl, rfl⟩ := hrun
    have hread := readBits_ok_readerOnly hf
    refine ⟨hread, ?_⟩
    show execPreZeroLong s = _
    refine runElement_congr ?_
    simp only [zeroRun, awaited_begin, haw, hf, Res.ok_bind]
    rw [readerOnly_cfg hread, begin_cfg, if_neg (Nat.not_lt.mpr hle)]
  · obtain ⟨f, z2, s0, hf, hz, h16, rfl, hv⟩ := hrun
    have hread0 := readBits_ok_readerOnly hf
    have hread := readerOnly_trans hread0 (decodeSymbol_ok_readerOnly hz)
    refine ⟨hread, ?_⟩
    show execPreRepeat s = _
    refine runElement_congr ?_
    have hval : deltaMod17 (oldLength p x s1) z2 = v := by
      rw [hold _ hread]
      exact Int.natCast_inj.mp ((deltaMod17_eq _ _).trans hv.symm)
    simp only [awaited_begin, haw, hf, Res.ok_bind]
    rw [readerOnly_cfg hread0, begin_cfg, if_neg (Nat.not_lt.mpr hle), hz, Res.ok_bind, if_neg (Nat.not_lt.mpr h16),
      hval]
  · exact hrun.elim

theorem runWritten_fillEntries (p : Pass) (x k v : Nat) (s : State) :
    runWritten p x k v s (fillEntries (p.arr s) x k v) :=
  ⟨fillEntries_length .., fun j hj => fillEntries_getD _ x k v j (by rwa [fillEntries_length] at hj)⟩

/-- The writing of a run in the state behind its footers, by what varies. -/
theorem passWrite_eq {h : BlockHdr} {p : Pass} {x k v : Nat} {s s1 : State} (hread : readerOnly (begin s) s1) :
    passWrite h p x k v s1 = passContinue h p (x + k) (p.setArr (fillEntries (p.arr s) x k v) { s with
      pend := some ⟨s.seen, awaited s⟩
      draws := s1.draws
      sess := { s.sess with rdC := s1.sess.rdC, rdQ := s1.sess.rdQ } }) := by
  obtain ⟨c, q, d, rfl⟩ := readerOnly_begin_exists hread
  cases p <;> rfl

@[simp] theorem Pass.setArr_cfg (p : Pass) (arr : List Nat) (s : State) : (p.setArr arr s).cfg = s.cfg := by
  cases p <;> rfl

/-- Settles O49, by the run written and the loop that goes on. -/
theorem preRuns : Obligations.PreRuns := by
  unfold Obligations.PreRuns
  intro i h p x k v s s1 haw hrun hlt
  obtain ⟨hread, hexec⟩ := exec_of_preRun haw hrun (Nat.le_of_lt hlt)
  refine ⟨_, _, hexec.trans (runElement_ok ?_), runWritten_fillEntries p x k v s, rfl⟩
  rw [passWrite_eq hread, passContinue, Pass.setArr_cfg, if_pos hlt]
  cases p <;> rfl

/-- The end of a pass whose tree is built, or is not (43_lzx_blocks.md R122, R115). -/
theorem runElement_passEnd {h : BlockHdr} (p : Pass) {s u : State} (htype : h.type = 1 ∨ h.type = 2) :
    ∃ t, runElement s (fun _ => passEnd h p (u.setPend (some ⟨s.seen, awaited s⟩))) = .next t
      ∧ passEnded h p s u t := by
  have hne : h.type ≠ 3 := by
    obtain h1 | h2 := htype
    · rw [h1]; decide
    · rw [h2]; decide
  cases p with
  | mainLow => exact ⟨_, runElement_ok rfl, rfl⟩
  | mainHigh =>
    simp only [passEnd, passEnded]
    split
    · next hk => exact ⟨_, runElement_ok (by rw [build_eq_ok (by exact hk)]; rfl), rfl⟩
    · next hk =>
      obtain ⟨hcomplete, hempty⟩ := not_or.mp hk
      exact runElement_raise (d := u.draws) (by rw [build_eq_raise (by exact hcomplete) (by exact hempty)]; rfl)
  | lengths =>
    simp only [passEnd, passEnded]
    split
    · next hk =>
      refine ⟨_, runElement_ok (by rw [build_eq_ok (by exact hk)]; rfl), ?_⟩
      simp only [headerTail, treeDecState, blockEnd, if_neg hne]
      split
      · rfl
      · rfl
    · next hk =>
      obtain ⟨hcomplete, hempty⟩ := not_or.mp hk
      exact runElement_raise (d := u.draws) (by rw [build_eq_raise (by exact hcomplete) (by exact hempty)]; rfl)

/-- Settles O50, by the run written and the pass's end behind it. -/
theorem passEnds : Obligations.PassEnds := by
  unfold Obligations.PassEnds
  intro i h p x k v s s1 haw htype hrun hend
  obtain ⟨hread, hexec⟩ := exec_of_preRun haw hrun (Nat.le_of_eq hend)
  obtain ⟨t, ht, hended⟩ := runElement_passEnd p (s := s) (u := p.setArr (fillEntries (p.arr s) x k v) { s with
    draws := s1.draws, sess := { s.sess with rdC := s1.sess.rdC, rdQ := s1.sess.rdQ } }) htype
  refine ⟨_, t, ?_, runWritten_fillEntries p x k v s, hended⟩
  rw [hexec, ← ht]
  refine runElement_congr ?_
  rw [passWrite_eq hread, passContinue, Pass.setArr_cfg, if_neg (by rw [hend]; exact Nat.lt_irrefl _)]
  cases p <;> rfl

/-- Settles O51, by the order of the checks. -/
theorem runFaults : Obligations.RunFaults := by
  unfold Obligations.RunFaults
  intro h p x f s s1 haw
  refine ⟨fun hf hover => ?_, fun hf hover => ?_, fun hf hover => ?_, fun hf hfit z2 s2 hz h16 => ?_⟩
  · show ∃ t, execPreZeroShort s = _ ∧ _
    refine runElement_raise (d := s1.draws) ?_
    simp only [zeroRun, awaited_begin, haw, hf, Res.ok_bind]
    rw [readerOnly_cfg (readBits_ok_readerOnly hf), begin_cfg, if_pos (by omega)]
  · show ∃ t, execPreZeroLong s = _ ∧ _
    refine runElement_raise (d := s1.draws) ?_
    simp only [zeroRun, awaited_begin, haw, hf, Res.ok_bind]
    rw [readerOnly_cfg (readBits_ok_readerOnly hf), begin_cfg, if_pos (by omega)]
  · show ∃ t, execPreRepeat s = _ ∧ _
    refine runElement_raise (d := s1.draws) ?_
    simp only [awaited_begin, haw, hf, Res.ok_bind]
    rw [readerOnly_cfg (readBits_ok_readerOnly hf), begin_cfg, if_pos (by omega)]
  · show ∃ t, execPreRepeat s = _ ∧ _
    refine runElement_raise (d := s2.draws) ?_
    simp only [awaited_begin, haw, hf, Res.ok_bind]
    rw [readerOnly_cfg (readBits_ok_readerOnly hf), begin_cfg, if_neg (by omega), hz, Res.ok_bind, if_pos h16]

end Sys2Proof.Machine
end

section
/-! SUPPORT. What the symbols of a block do (44_lzx_symbols.md R129 to R143): the literal and the raw byte, the copy with the
period of its offset, the match elements. -/

namespace Sys2Proof.Machine

/-! ## Literals and raw bytes -/

/-- The accounting leaves `OUT` and the window, whatever it ends in (44_lzx_symbols.md R130). -/
theorem account_memories (k : Nat) (s : State) :
    (account k s).out = s.out ∧ (account k s).sess.win = s.sess.win := by
  simp only [account, blockEnd]
  split
  · split
    · exact ⟨rfl, rfl⟩
    · split
      · rw [afterElement_eq]
        exact ⟨rfl, rfl⟩
      · rw [afterElement_eq]
        exact ⟨rfl, rfl⟩
  · rw [afterElement_eq]
    exact ⟨rfl, rfl⟩

/-- An emitted byte stands in `OUT` and in the window; every other byte of both is as before (44_lzx_symbols.md R129). -/
theorem account_emit_bytes (b : Byte) (s : State) :
    (∀ a, (account 1 (emit b (begin s))).out.get? a = if a = s.sess.produced then some b else s.out.get? a)
      ∧ ∀ j, (account 1 (emit b (begin s))).sess.win.get? j = if j = s.sess.wpos then some b else s.sess.win.get? j := by
  obtain ⟨hout, hwin⟩ := account_memories 1 (emit b (begin s))
  rw [hout, hwin, begin_eq_record]
  exact ⟨fun a => Memory.get?_set _ _ b a, fun j => Memory.get?_set _ _ b j⟩

theorem exec_mainLiteral (b : Byte) (s : State) : exec (.mainLiteral b) s = .next (account 1 (emit b (begin s))) := rfl

theorem exec_rawByte (b : Byte) (s : State) : exec (.rawByte b) s = .next (account 1 (emit b (begin s))) := rfl

/-- Settles O52, by the accounting outside an Uncompressed block. -/
theorem literalResult : Obligations.LiteralResult := by
  unfold Obligations.LiteralResult
  intro b s hb
  obtain ⟨hout, hwin⟩ := account_emit_bytes b s
  refine ⟨_, exec_mainLiteral b s, ?_, hout, hwin⟩
  rw [account_of_ne 1 _ (by rw [begin_eq_record]; exact hb), begin_eq_record]
  rfl

/-- The accounting of an Uncompressed block inside the block (44_lzx_symbols.md R130). -/
theorem account_inside {k : Nat} {s : State} (hrem : s.sess.blockRem - k ≠ 0) :
    account k s = afterElement { s with sess := { s.sess with
      blockRem := s.sess.blockRem - k, frameRem := s.sess.frameRem - k } } := by
  rw [account]
  exact if_neg hrem

/-- The accounting at the end of an Uncompressed block whose length asks for a pad byte (44_lzx_symbols.md R131). -/
theorem account_pad {k : Nat} {s : State} (hrem : s.sess.blockRem - k = 0) (hb : s.sess.blockType = 3)
    (hpad : s.cfg.oddPad = true) (hodd : s.sess.blockLen % 2 = 1) :
    account k s = await .oddPad { s with sess := { s.sess with
      blockRem := s.sess.blockRem - k, frameRem := s.sess.frameRem - k } } := by
  rw [account]
  refine (if_pos hrem).trans (if_pos ?_)
  simp [oddPadDue, hb, hpad, hodd]

/-- The accounting at the end of an Uncompressed block without a pad byte: the reader restarts (44_lzx_symbols.md R131). -/
theorem account_restart {k : Nat} {s : State} (hrem : s.sess.blockRem - k = 0) (hb : s.sess.blockType = 3)
    (hpad : ¬ (s.cfg.oddPad = true ∧ s.sess.blockLen % 2 = 1)) :
    account k s = afterElement (reinit { s with sess := { s.sess with
      blockRem := s.sess.blockRem - k, frameRem := s.sess.frameRem - k } }) := by
  rw [account]
  refine (if_pos hrem).trans ((if_neg ?_).trans ?_)
  · simp only [oddPadDue, Bool.and_eq_true, beq_iff_eq]
    exact fun h => hpad ⟨h.1.2, h.2⟩
  · rw [blockEnd, if_pos (by exact hb)]

theorem exec_oddPad {s : State} (haw : awaited s = .oddPad) : exec .oddPad s = .next { s with
    pend := none
    sess := { s.sess with
      rdC := if s.cfg.oddPad = true then s.sess.rdC + 1 + (s.sess.rdC + 1) % 2 else s.sess.rdC + 1
      rdQ := []
      ds := (afterCounts s.sess s.sess.blockRem s.sess.frameRem).1
      inPos := (afterCounts s.sess s.sess.blockRem s.sess.frameRem).2 } } := by
  show execOddPad s = _
  refine runElement_ok ?_
  simp only [awaited_begin, haw]
  rw [afterElement_eq, begin_eq_record]
  rfl

/-- Settles O53, by the three ends of the accounting. -/
theorem rawBytes : Obligations.RawBytes := by
  unfold Obligations.RawBytes
  refine ⟨fun b s hb => ⟨_, exec_rawByte b s, ?_, account_emit_bytes b s⟩, fun s => exec_oddPad⟩
  have hb' : (emit b (begin s)).sess.blockType = 3 := by rw [begin_eq_record]; exact hb
  dsimp only
  refine ⟨fun ⟨hrem, hpad, hodd⟩ => ?_, fun hno => ?_⟩
  · rw [account_pad (by rw [begin_eq_record]; exact hrem) hb' (by rw [begin_eq_record]; exact hpad)
      (by rw [begin_eq_record]; exact hodd), begin_eq_record]
    rfl
  · by_cases hrem : s.sess.blockRem - 1 = 0
    · rw [account_restart (by rw [begin_eq_record]; exact hrem) hb'
        (by rw [begin_eq_record]; exact fun h => hno ⟨hrem, h⟩), afterElement_eq, begin_eq_record]
      simp only [and_iff_right hrem, if_pos hrem]
      rfl
    · rw [account_inside (by rw [begin_eq_record]; exact hrem), afterElement_eq, begin_eq_record]
      simp only [hrem, false_and, if_false]
      rfl

/-! ## The copy -/

/-- `t` is `s` after a copy of `len` bytes from offset `off` (44_lzx_symbols.md R141): each byte of `OUT` and cell of the
window. -/
def copied (len off : Nat) (s t : State) : Prop :=
  t = { s with
      out := t.out
      sess := { s.sess with
        win := t.sess.win
        wpos := (s.sess.wpos + len) % s.cfg.windowSize
        written := min (s.sess.written + len) s.cfg.windowSize
        produced := s.sess.produced + len } }
    ∧ (∀ a, t.out.get? a =
        if s.sess.produced ≤ a ∧ a < s.sess.produced + len then
          s.sess.win.get? (copySource s.cfg s.sess off (a - s.sess.produced))
        else s.out.get? a)
    ∧ (∀ k, k < len → t.sess.win.get? ((s.sess.wpos + k) % s.cfg.windowSize) = t.out.get? (s.sess.produced + k))
    ∧ ∀ j, (∀ k, k < len → j ≠ (s.sess.wpos + k) % s.cfg.windowSize) → t.sess.win.get? j = s.sess.win.get? j

/-- The index one cell on, modulo the window. -/
theorem succ_mod_add {wpos w off m : Nat} (hw : wpos < w) (hoff : off ≤ w) :
    ((wpos + 1) % w + w - off + m) % w = (wpos + w - off + (m + 1)) % w := by
  obtain h | h : wpos + 1 < w ∨ wpos + 1 = w := by omega
  · rw [Nat.mod_eq_of_lt h]
    congr 1
    omega
  · rw [h, Nat.mod_self, show wpos + w - off + (m + 1) = (0 + w - off + m) + w by omega, Nat.add_mod_right]

/-- The cells behind the write position are not the one written, up to a whole window. -/
theorem add_mod_ne {wpos w off m : Nat} (hw : wpos < w) (hoff : off ≤ w) (h0 : 0 < m) (hm : m < off) :
    (wpos + w - off + m) % w ≠ wpos := by
  obtain h | h : wpos + m < off ∨ off ≤ wpos + m := by omega
  · rw [Nat.mod_eq_of_lt (by omega)]
    omega
  · rw [show wpos + w - off + m = (wpos + m - off) + w by omega, Nat.add_mod_right, Nat.mod_eq_of_lt (by omega)]
    omega

theorem succ_mod_of_ne_zero {j off : Nat} (h : (j + 1) % off ≠ 0) (hoff : 0 < off) :
    (j + 1) % off = j % off + 1 := by
  have hlt := Nat.mod_lt j hoff
  obtain hlt' | heq : j % off + 1 < off ∨ j % off + 1 = off := by omega
  · rw [← Nat.mod_add_mod, Nat.mod_eq_of_lt hlt']
  · rw [← Nat.mod_add_mod, heq, Nat.mod_self] at h
    exact absurd rfl h

theorem mod_eq_of_succ_mod_zero {j off : Nat} (h : (j + 1) % off = 0) (hoff : 0 < off) : j % off + 1 = off := by
  have hlt := Nat.mod_lt j hoff
  obtain hlt' | heq : j % off + 1 < off ∨ j % off + 1 = off := by omega
  · rw [← Nat.mod_add_mod, Nat.mod_eq_of_lt hlt'] at h
    omega
  · exact heq

section
variable {s : State} {off : Nat} (hist : sessionHistory s.cfg s.sess) (h0 : 0 < off) (hoff : off ≤ s.sess.written)
include hist h0 hoff

/-- The cell read for the first byte of a copy is the source of byte 0, and holds a byte. -/
theorem windowIndex_eq_copySource : windowIndex s.sess.wpos off s.cfg.windowSize = copySource s.cfg s.sess off 0
    ∧ ∃ b, s.sess.win.get? (copySource s.cfg s.sess off 0) = some b := by
  obtain ⟨hpos, hwr, hcells⟩ := hist
  have hidx : windowIndex s.sess.wpos off s.cfg.windowSize = copySource s.cfg s.sess off 0 := by
    unfold windowIndex copySource
    rw [Nat.zero_mod, Nat.add_zero]
    obtain h | h : off < s.cfg.windowSize ∨ off = s.cfg.windowSize := by omega
    · rw [Nat.mod_eq_of_lt h]
    · rw [h, Nat.mod_self, Nat.sub_zero, Nat.add_mod_right, Nat.add_sub_cancel]
  have hcell := hcells (off - 1) (by omega)
  rw [Nat.sub_add_cancel h0, hidx] at hcell
  exact ⟨hidx, Option.isSome_iff_exists.mp hcell⟩

/-- After the first byte of a copy the sources of the others are the cells they were, or the byte just written: the period
of the offset (44_lzx_symbols.md R141). -/
theorem copySource_emit {b : Byte} (hb : s.sess.win.get? (copySource s.cfg s.sess off 0) = some b) (j : Nat) :
    (emit b s).sess.win.get? (copySource s.cfg (emit b s).sess off j)
      = s.sess.win.get? (copySource s.cfg s.sess off (j + 1)) := by
  obtain ⟨hpos, hwr, -⟩ := hist
  have hidx : copySource s.cfg (emit b s).sess off j
      = (s.sess.wpos + s.cfg.windowSize - off + (j % off + 1)) % s.cfg.windowSize :=
    succ_mod_add hpos (by omega)
  rw [hidx, emit_sess, Memory.get?_set]
  obtain hz | hnz := eq_or_ne ((j + 1) % off) 0
  · have hwrap : s.sess.wpos + s.cfg.windowSize - off + (j % off + 1) = s.sess.wpos + s.cfg.windowSize := by
      rw [mod_eq_of_succ_mod_zero hz h0]
      omega
    rw [hwrap, Nat.add_mod_right, Nat.mod_eq_of_lt hpos, if_pos rfl, ← hb]
    simp only [copySource, hz, Nat.zero_mod]
  · have hm := succ_mod_of_ne_zero hnz h0
    have hlt := Nat.mod_lt (j + 1) h0
    rw [if_neg (add_mod_ne hpos (by omega) (by omega) (by omega)), copySource, hm]

end

/-- One byte more: a copy is its first byte and the copy of the others. -/
theorem copied_succ {len off : Nat} {s t : State} {b : Byte} (hist : sessionHistory s.cfg s.sess) (h0 : 0 < off)
    (hoff : off ≤ s.sess.written) (hlen : len + 1 ≤ s.cfg.windowSize)
    (hb : s.sess.win.get? (copySource s.cfg s.sess off 0) = some b) (h : copied len off (emit b s) t) :
    copied (len + 1) off s t := by
  have hsrc := copySource_emit hist h0 hoff hb
  obtain ⟨hpos, -, -⟩ := hist
  obtain ⟨heq, hout, hwin, hrest⟩ := h
  have hnext (k : Nat) : ((s.sess.wpos + 1) % s.cfg.windowSize + k) % s.cfg.windowSize
      = (s.sess.wpos + (k + 1)) % s.cfg.windowSize := by
    rw [Nat.mod_add_mod]
    congr 1
    omega
  have hout (a : Nat) : t.out.get? a =
      if s.sess.produced + 1 ≤ a ∧ a < s.sess.produced + 1 + len then
        (emit b s).sess.win.get? (copySource s.cfg (emit b s).sess off (a - (s.sess.produced + 1)))
      else (s.out.set s.sess.produced b).get? a := hout a
  simp only [emit_cfg, emit_sess] at hwin hrest
  have hout' (a : Nat) : t.out.get? a = if s.sess.produced ≤ a ∧ a < s.sess.produced + (len + 1) then
      s.sess.win.get? (copySource s.cfg s.sess off (a - s.sess.produced)) else s.out.get? a := by
    rw [hout a]
    obtain hlt | rfl | hgt := Nat.lt_trichotomy a s.sess.produced
    · rw [if_neg (by omega), if_neg (by omega), Memory.get?_set_ne _ _ (by omega)]
    · rw [if_neg (by omega), if_pos (by omega), Memory.get?_set_self, Nat.sub_self, hb]
    · rw [Memory.get?_set_ne _ _ (by omega), show a - s.sess.produced = a - (s.sess.produced + 1) + 1 by omega]
      split
      · rw [if_pos (by omega)]
        exact hsrc _
      · rw [if_neg (by omega)]
  refine ⟨?_, hout', fun k hk => ?_, fun j hj => ?_⟩
  · rw [heq]
    simp only [emit_cfg, emit_sess, hnext]
    simp only [emit, show s.sess.produced + 1 + len = s.sess.produced + (len + 1) by omega]
    congr 2
    omega
  · cases k with
    | zero =>
      have hmiss : ∀ k, k < len → s.sess.wpos ≠ ((s.sess.wpos + 1) % s.cfg.windowSize + k) % s.cfg.windowSize := by
        intro k hk
        rw [hnext]
        obtain h | h := Nat.lt_or_ge (s.sess.wpos + (k + 1)) s.cfg.windowSize
        · rw [Nat.mod_eq_of_lt h]
          omega
        · rw [Nat.mod_eq_sub_mod h, Nat.mod_eq_of_lt (by omega)]
          omega
      rw [Nat.add_zero, Nat.add_zero, Nat.mod_eq_of_lt hpos, hrest _ hmiss, hout, if_neg (by omega)]
      rw [Memory.get?_set_self, Memory.get?_set_self]
    | succ k =>
      have := hwin k (by omega)
      rwa [hnext, show s.sess.produced + 1 + k = s.sess.produced + (k + 1) by omega] at this
  · rw [hrest j fun k hk => hnext k ▸ hj (k + 1) (by omega), Memory.get?_set_ne]
    have := hj 0 (by omega)
    rwa [Nat.add_zero, Nat.mod_eq_of_lt hpos] at this

/-- A copy inside the history repeats the window with the period of its offset, and draws nothing. -/
theorem copied_copyMatch {len off : Nat} {s : State} (hist : sessionHistory s.cfg s.sess) (h0 : 0 < off)
    (hoff : off ≤ s.sess.written) (hlen : len ≤ s.cfg.windowSize) : copied len off s (copyMatch len off s) := by
  induction len generalizing s with
  | zero =>
    obtain ⟨hpos, hwr, -⟩ := hist
    refine ⟨?_, fun a => (if_neg (by omega)).symm, fun k hk => by omega, fun j _ => rfl⟩
    rw [copyMatch, Nat.add_zero, Nat.add_zero, Nat.add_zero, Nat.mod_eq_of_lt hpos, Nat.min_eq_left hwr]
  | succ len ih =>
    obtain ⟨hidx, b, hb⟩ := windowIndex_eq_copySource hist h0 hoff
    obtain ⟨-, hwr, -⟩ := id hist
    refine copied_succ hist h0 hoff hlen hb ?_
    rw [copyMatch, hidx, readCell_some hb]
    exact ih (s := emit b s) (sessionHistory_emit b hist) (by simp only [emit_sess]; omega)
      (by rw [emit_cfg]; omega)

/-- Settles O55, by induction on the length of the copy. -/
theorem copyMatch_periodic : Obligations.CopyMatch := by
  unfold Obligations.CopyMatch
  exact fun len off s hist h0 hoff hlen => copied_copyMatch hist h0 hoff hlen

/-! ## Match elements -/

/-- A match that passes its checks ends as `matched` says. -/
theorem finishMatch_ok {len off : Nat} {r : Word × Word × Word} {s : State} (hb : s.sess.blockType ≠ 3)
    (hist : sessionHistory s.cfg s.sess) (hlen : len ≤ s.cfg.windowSize) (hok : matchAllowed len off s) :
    ∃ t, finishMatch len off r s = .ok () t ∧ matched len off r s t := by
  have hcheck := (checkMatch_eq_none len off s).mpr hok
  obtain ⟨-, -, h0, -, hoff⟩ := hok
  obtain ⟨heq, hout, hwin, hrest⟩ := copied_copyMatch hist h0 hoff hlen
  generalize hu : copyMatch len off s = u at heq hout hwin hrest
  refine ⟨account len (u.setR r.1 r.2.1 r.2.2), by rw [finishMatch, hcheck, hu], ?_⟩
  obtain ⟨out, win, rfl⟩ : ∃ out win, u = { s with
      out := out
      sess := { s.sess with
        win := win
        wpos := (s.sess.wpos + len) % s.cfg.windowSize
        written := min (s.sess.written + len) s.cfg.windowSize
        produced := s.sess.produced + len } } := ⟨_, _, heq⟩
  rw [account_of_ne _ _ (by exact hb)]
  exact ⟨rfl, hout, hwin, hrest⟩

/-- A match that a check forbids raises that check's fault. -/
theorem finishMatch_raise {len off : Nat} {r : Word × Word × Word} {s : State} {e : SessionError}
    (h : checkMatch len off s = some e) : finishMatch len off r s = .raise e s.draws := by
  rw [finishMatch, h]

/-- The footers of a match leave everything that its checks look at. -/
theorem checkMatch_congr {s t : State} (h : readerOnly (begin s) t) (len off : Nat) :
    checkMatch len off t = checkMatch len off s := by
  obtain ⟨c, q, d, rfl⟩ := readerOnly_begin_exists h
  rfl

/-- Settles O56: the footers move the reader alone, then the copy and the accounting of an allowed match. -/
theorem matchResult : Obligations.MatchResult := by
  unfold Obligations.MatchResult
  intro i s s1 slot len off hm hb hist hlen hok
  obtain ⟨hread, hexec⟩ := exec_of_matchOperands hm
  refine ⟨hread, ?_⟩
  rw [hexec]
  obtain ⟨t, ht, hmatched⟩ : ∃ t, finishMatch len off (matchRegs s.cfg.slot2Mode slot off s.sess.regs) s1 = .ok () t
      ∧ matched len off (matchRegs s.cfg.slot2Mode slot off s.sess.regs) s1 t := by
    obtain ⟨c, q, d, rfl⟩ := readerOnly_begin_exists hread
    exact finishMatch_ok hb hist hlen hok
  exact ⟨t, runElement_ok ht, hmatched⟩

/-- Settles O57, by the order of the checks. -/
theorem matchFaults : Obligations.MatchFaults := by
  unfold Obligations.MatchFaults
  intro i s s1 slot len off hm
  obtain ⟨hread, hexec⟩ := exec_of_matchOperands hm
  have hfault (e : SessionError) (h : checkMatch len off s = some e) : ∃ t, exec i s = .next t ∧ faulted e s t := by
    rw [hexec]
    exact runElement_raise (finishMatch_raise ((checkMatch_congr hread len off).trans h))
  refine ⟨fun hrun => hfault _ (if_pos hrun), fun hle hz => hfault _ ?_, fun hle hnz hw => hfault _ ?_,
    fun hle hnz hw hwr => hfault _ ?_⟩
  · rw [checkMatch, if_neg (Nat.not_lt.mpr hle), if_pos hz]
  · rw [checkMatch, if_neg (Nat.not_lt.mpr hle), if_neg hnz, if_pos hw]
  · rw [checkMatch, if_neg (Nat.not_lt.mpr hle), if_neg hnz, if_neg (Nat.not_lt.mpr hw), if_pos hwr]

/-- An element that awaits another one and reads nothing. -/
theorem runElement_await {s : State} {f : State → Res Unit} {c : Ctx} (h : f (begin s) = .ok () (await c (begin s))) :
    runElement s f = .next { s with pend := some ⟨s.seen, c⟩ } := by
  rw [runElement_ok h, await, seen_begin, begin_eq]
  rfl

/-- Settles O58, by the slot's rule of the match symbol and of its length footer. -/
theorem matchAwaits : Obligations.MatchAwaits := by
  unfold Obligations.MatchAwaits
  refine ⟨fun slot lh i s hi => ⟨fun h7 => ?_, fun h7 h3 hb hx => ?_⟩, fun slot v s s1 haw hv h3 hb hx => ?_⟩
  · rw [exec_ofSlot hi, h7]
    exact runElement_await rfl
  · rw [exec_ofSlot hi]
    refine runElement_await ?_
    rw [matchSymbol_of_ne h7, matchOffset_of_aligned h3 ⟨by rwa [begin_sess], hx⟩]
  · obtain ⟨c, q, d, rfl⟩ := readerOnly_begin_exists (decodeSymbol_ok_readerOnly hv)
    show execLenFooter s = _
    refine runElement_ok ?_
    simp only [awaited_begin, haw, hv, Res.ok_bind]
    rw [matchOffset_of_aligned h3 ⟨by exact hb, hx⟩]
    rfl

end Sys2Proof.Machine
end

section
/-! SUPPORT. Everything an element of the engine can do, said once: the reads it makes first, then its one effect, or a
fault of its row (41_bit_reader.md, 60_exceptions.md R171). Every invariant of the engine is derived from this. -/

namespace Sys2Proof.Machine

/-! ## Pieces of pseudocode, refusals left open -/

/-- Where `x` succeeds its value and state are in `P`, where it raises a fault that is in `E`; of a refusal it says nothing,
so that it speaks of every state. -/
def Res.within {α : Type} (x : Res α) (P : α → State → Prop) (E : SessionError → Prop) : Prop :=
  match x with
  | .ok a s => P a s
  | .raise e _ => E e
  | .refuse _ => True

namespace Res

variable {α β : Type} {P P' : α → State → Prop} {Q : β → State → Prop} {E E' : SessionError → Prop}

theorem within_bind {x : Res α} {f : α → State → Res β} (hx : x.within P E)
    (hf : ∀ a s, P a s → (f a s).within Q E) : (x.bind f).within Q E := by
  cases x with
  | ok a s => exact hf a s hx
  | raise e d => exact hx
  | refuse r => trivial

theorem within_mono {x : Res α} (hx : x.within P E) (hP : ∀ a s, P a s → P' a s) (hE : ∀ e, E e → E' e) :
    x.within P' E' := by
  cases x with
  | ok a s => exact hP a s hx
  | raise e d => exact hE e hx
  | refuse r => trivial

theorem within_of_post {x : Res α} (hx : x.post P E) : x.within P E := by
  cases x with
  | ok a s => exact hx
  | raise e d => exact hx
  | refuse r => trivial

/-- A failing check in front of a piece. -/
theorem within_check {c : Prop} [Decidable c] {e : SessionError} {d : Nat} {x : Res α} (he : E e)
    (hx : ¬ c → x.within P E) : (if c then .raise e d else x).within P E := by
  split
  · exact he
  · next hc => exact hx hc

end Res

theorem runElement_within {s t : State} {f : State → Res Unit} {P : Unit → State → Prop} {E : SessionError → Prop}
    (hf : (f (begin s)).within P E) (h : runElement s f = .next t) : P () t ∨ ∃ e, E e ∧ faulted e s t := by
  obtain hok | ⟨e, d, hraise, rfl⟩ := runElement_next h
  · rw [hok] at hf
    exact .inl hf
  · rw [hraise] at hf
    exact .inr ⟨e, hf, takeFault_faulted e d s⟩

/-! ## Reads -/

/-- The bits inside the frame's data that are still to be consumed, the last odd byte counted as a word: those buffered,
and 16 for each word still to be fetched (41_bit_reader.md R91, R93). -/
def bitsLeft (t : Session) : Nat := t.rdQ.countP (·.real) + 16 * ((t.frameLen - t.rdC + 1) / 2)

/-- `t` is `s` behind reads of the bit reader that consumed at least `n` bits: the reader alone has moved, an even cursor is
even still, and no more is buffered than the reader may hold. -/
def readOn (n : Nat) (s t : State) : Prop :=
  readerOnly s t ∧ (s.sess.rdC % 2 = 0 → t.sess.rdC % 2 = 0) ∧ t.sess.rdQ.length ≤ max s.sess.rdQ.length 31
    ∧ bitsLeft t.sess + n ≤ bitsLeft s.sess

theorem readOn_refl (s : State) : readOn 0 s s := ⟨readerOnly_refl s, id, Nat.le_max_left .., Nat.le_refl _⟩

theorem readOn_trans {m n : Nat} {s t u : State} (h : readOn m s t) (h' : readOn n t u) : readOn (m + n) s u := by
  obtain ⟨hr, hp, hl, hb⟩ := h
  obtain ⟨hr', hp', hl', hb'⟩ := h'
  exact ⟨readerOnly_trans hr hr', hp' ∘ hp, by omega, by omega⟩

theorem readOn_mono {m n : Nat} {s t : State} (h : readOn n s t) (hm : m ≤ n) : readOn m s t := by
  obtain ⟨hr, hp, hl, hb⟩ := h
  exact ⟨hr, hp, hl, by omega⟩

theorem readOn_of_drawsOnly {s t : State} (h : drawsOnly s t) : readOn 0 s t := by
  obtain ⟨d, rfl⟩ := drawsOnly_iff.mp h
  exact ⟨rfl, id, Nat.le_max_left .., Nat.le_refl _⟩

theorem countP_wordBits (w : BitVec 16) (real : Bool) :
    (wordBits w real).countP (·.real) = if real then 16 else 0 := by
  cases real with
  | true =>
    rw [List.countP_eq_length.mpr fun b hb => real_of_mem_wordBits hb, wordBits_length]
    rfl
  | false =>
    rw [List.countP_eq_zero.mpr fun b hb => by rw [real_of_mem_wordBits hb]; decide]
    rfl

/-- A `fetch` consumes nothing. -/
theorem fetchWord_bitsLeft (s : State) : bitsLeft (fetchWord s).sess = bitsLeft s.sess := by
  have hlen : (fetchWord s).sess.frameLen = s.sess.frameLen := by rw [readerOnly_sess (fetchWord_readerOnly s)]
  have hcount : (fetchWord s).sess.rdQ.countP (·.real)
      = s.sess.rdQ.countP (·.real) + if s.sess.rdC < s.sess.frameLen then 16 else 0 := by
    simp only [fetchWord, State.setReader_sess, List.countP_append, countP_wordBits, decide_eq_true_eq,
      drawsOnly_sess (frameByte_drawsOnly _ _)]
  rw [bitsLeft, bitsLeft, hcount, hlen, fetchWord_rdC]
  split <;> omega

theorem ensure_bitsLeft (n : Nat) (s : State) :
    bitsLeft (ensure n s).sess = bitsLeft s.sess ∧ (ensure n s).sess.rdC % 2 = s.sess.rdC % 2 := by
  have key (fuel : Nat) : ∀ s : State, bitsLeft (ensureLoop fuel n s).sess = bitsLeft s.sess
      ∧ (ensureLoop fuel n s).sess.rdC % 2 = s.sess.rdC % 2 := by
    induction fuel with
    | zero => exact fun s => ⟨rfl, rfl⟩
    | succ k ih =>
      intro s
      unfold ensureLoop
      split
      · obtain ⟨h1, h2⟩ := ih (fetchWord s)
        rw [h1, h2, fetchWord_bitsLeft, fetchWord_rdC]
        exact ⟨rfl, by omega⟩
      · exact ⟨rfl, rfl⟩
  exact key n s

/-- Ensured bits that are real are consumed. -/
theorem readOn_remove {n m : Nat} {s : State} (hn : n ≤ m) (hm : m ≤ n + 16)
    (hreal : ((ensure m s).sess.rdQ.take n).all (·.real) = true) :
    readOn n s ((ensure m s).setReader (ensure m s).sess.rdC ((ensure m s).sess.rdQ.drop n)) := by
  obtain ⟨hbits, hpar⟩ := ensure_bitsLeft m s
  have hlen := ensure_le_length m s
  have hle := ensure_length_le m s
  refine ⟨readerOnly_trans (ensure_readerOnly m s) (readerOnly_setReader _ _ _), fun h => hpar.trans h, ?_, ?_⟩
  · rw [State.setReader_sess, List.length_drop]
    omega
  · have htake : ((ensure m s).sess.rdQ.take n).countP (·.real) = n := by
      rw [List.countP_eq_length.mpr (List.all_eq_true.mp hreal), List.length_take, Nat.min_eq_left (by omega)]
    have hsplit : (ensure m s).sess.rdQ.countP (·.real)
        = n + ((ensure m s).sess.rdQ.drop n).countP (·.real) := by
      conv_lhs => rw [← List.take_append_drop n (ensure m s).sess.rdQ, List.countP_append, htake]
    rw [← hbits, bitsLeft, bitsLeft, hsplit, State.setReader_sess]
    dsimp only
    omega

theorem readBits_within (n : Nat) (s : State) :
    (readBits n s).within (fun v t => readOn n s t ∧ v < 2 ^ n) (· = .bitsExhausted) := by
  have hp := Res.within_of_post (readBits_post n s)
  cases h : readBits n s with
  | ok v t =>
    rw [h] at hp
    obtain ⟨hreal, -, rfl⟩ := readBits_eq_ok h
    exact ⟨readOn_remove (Nat.le_refl n) (Nat.le_add_right ..) hreal, hp.2.1⟩
  | raise e d => exact readBits_raise_eq h
  | refuse r => trivial

theorem readFields_within (n k : Nat) (s : State) :
    (readFields n k s).within (fun vs t => readOn (n * k) s t ∧ vs.length = k ∧ ∀ v ∈ vs, v < 2 ^ n)
      (· = .bitsExhausted) := by
  induction k generalizing s with
  | zero => exact ⟨readOn_refl s, rfl, by simp⟩
  | succ k ih =>
    refine Res.within_bind (readBits_within n s) fun v t ⟨hv, hlt⟩ => ?_
    refine Res.within_bind (ih t) fun vs u ⟨hvs, hlen, hall⟩ => ?_
    refine ⟨readOn_mono (readOn_trans hv hvs) (by rw [Nat.mul_succ]; omega), by rw [List.length_cons, hlen], ?_⟩
    intro x hx
    rcases List.mem_cons.mp hx with rfl | hx
    · exact hlt
    · exact hall x hx

/-- A symbol decoded from whatever lengths is one of the array, and consumes at least one bit. -/
theorem decodeSymbol_within (tr : Tree) (s : State) :
    (decodeSymbol tr s).within (fun sym t => readOn 1 s t ∧ sym < (tr.lens s).length)
      (fun e => e = tr.empty ∨ e = .bitsExhausted) := by
  by_cases hk : kraft (tr.lens s) = 0
  · rw [decodeSymbol, if_pos hk]
    exact .inl rfl
  · cases hf : findSymbol (tr.lens s) (bitsVal ((ensure 16 s).sess.rdQ.take 16)) with
    | none =>
      rw [decodeSymbol, if_neg hk, peek, if_neg (Nat.not_lt.mpr (ensure_le_length 16 s)), Res.ok_bind]
      simp only [hf]
      trivial
    | some p =>
      obtain ⟨sym, l⟩ := p
      obtain ⟨hlt, -, hl⟩ := scanLengths_some (Nat.zero_le _) hf
      have hl : 1 ≤ l ∧ l ≤ 16 := by
        simp only [List.mem_cons, List.not_mem_nil, or_false] at hl
        omega
      rw [decodeSymbol_of_findSymbol hk hf]
      split
      · next hreal => exact ⟨readOn_mono (readOn_remove hl.2 (Nat.le_add_left ..) hreal) hl.1, hlt⟩
      · exact .inr rfl

/-- A word of raw bytes (43_lzx_blocks.md R119): the cursor moves by four inside the frame's data, the accumulator stays. -/
theorem readWord32_within (s : State) :
    (readWord32 s).within (fun _ t => readerOnly s t ∧ t.sess.rdC = s.sess.rdC + 4 ∧ t.sess.rdQ = s.sess.rdQ
        ∧ s.sess.rdC + 4 ≤ s.sess.frameLen) (· = .bytesExhausted) := by
  have hlen {s t : State} (h : readerOnly s t) : t.sess.frameLen = s.sess.frameLen := by rw [readerOnly_sess h]
  refine Res.within_of_post ?_
  unfold readWord32
  refine Res.post_bind (readByte_post s) fun _ _ ⟨h1, c1, q1, _⟩ => ?_
  refine Res.post_bind (readByte_post _) fun _ _ ⟨h2, c2, q2, _⟩ => ?_
  refine Res.post_bind (readByte_post _) fun _ _ ⟨h3, c3, q3, _⟩ => ?_
  refine Res.post_bind (readByte_post _) fun _ _ ⟨h4, c4, q4, l4, _⟩ => ?_
  have hl3 := hlen (readerOnly_trans h1 (readerOnly_trans h2 h3))
  exact ⟨readerOnly_trans h1 (readerOnly_trans h2 (readerOnly_trans h3 h4)), by omega, by rw [q4, q3, q2, q1], by omega⟩

/-- `align16` gives back at most one word. -/
theorem align16_bitsLeft (s : State) :
    bitsLeft (align16 s).sess ≤ bitsLeft s.sess + 16 ∧ (s.sess.rdC % 2 = 0 → (align16 s).sess.rdC % 2 = 0) := by
  obtain ⟨hbits, hpar⟩ := ensure_bitsLeft 16 s
  constructor
  · rw [← hbits]
    simp only [bitsLeft, align16, State.setReader_sess, List.countP_nil]
    split <;> omega
  · intro h
    rw [h] at hpar
    simp only [align16, State.setReader_sess]
    split <;> omega

/-! ## The effect of an element -/

/-- The element completes a match: a match symbol, a length footer or an aligned footer that is awaited. -/
def isMatch (i : Instr) (v : State) : Prop :=
  (∃ slot lh, Instr.ofSlot slot lh = some i)
    ∨ (i = .lenFooter ∧ ∃ slot, awaited v = .lenFooter slot)
    ∨ (i = .alignedSym ∧ ∃ slot len, awaited v = .alignedSym slot len)

/-- What an element does behind its reads, which left the state `v`: one constructor for each rule that ends an element. -/
inductive Effect (v : State) : Instr → State → Prop where
  /-- R88. -/
  | contRaw (platform version flags : Byte) (fileSize : Word) (hfit : v.inLen - 10 ≤ v.cfg.outCap) :
      Effect v (.contRaw platform version flags) { v with
        pend := none
        hdrPlatform := platform, hdrVersion := version, hdrFlags := flags
        hdrFileSize := fileSize, hdrDecSize := 0, compressed := flags.getLsbD 7
        sess := { v.sess with compressed := flags.getLsbD 7, decSize := v.inLen - 10, ds := .rawCopy } }
  /-- R89. -/
  | contCompressed (platform version flags : Byte) (fileSize size : Word) (hlen : 14 ≤ v.inLen)
      (hfit : size.toNat ≤ v.cfg.outCap) :
      Effect v (.contCompressed platform version flags) { v with
        pend := none
        hdrPlatform := platform, hdrVersion := version, hdrFlags := flags
        hdrFileSize := fileSize, hdrDecSize := size, compressed := flags.getLsbD 7
        sess := { v.sess with
          compressed := flags.getLsbD 7, decSize := size.toNat, inPos := 14, produced := 0, ds := .frameHdr } }
  /-- R90. -/
  | rawCopy (out : Memory)
      (hout : ∀ c, v.sess.decSize ≤ c → v.out.wf = true → v.out.below c = true → out.wf = true ∧ out.below c = true) :
      Effect v .rawCopy { v with
        pend := none
        out := out
        outLen := v.sess.decSize
        busy := false
        done := true
        sess := { v.sess with produced := v.sess.decSize, ds := .done } }
  /-- R148, R150. -/
  | frame {i : Instr} {t : State} (a hl bs fs : Nat) (hi : i = .frameExt ∨ ∃ h0, i = .frameStd h0) (hbs : bs ≠ 0)
      (hfs : fs ≠ 0) (htotal : fs ≤ v.sess.decSize - v.sess.produced) (hdata : a + hl + bs ≤ v.inLen)
      (hstart : frameStarted a hl bs fs v t) : Effect v i t
  /-- R113, R114. -/
  | e8 {i : Instr} (present : Bool) (size register : Word) (hi : i = .e8Off ∨ i = .e8On) :
      Effect v i { v with
        pend := none
        e8FileSize := register
        e8Present := present
        sess := { v.sess with e8Present := present, e8Size := size, headerRead := true, ds := .blockHdr } }
  /-- R117. -/
  | blkVerbatim (n : Nat) : Effect v .blkVerbatim (await (.pretree ⟨1, n⟩ .mainLow) v)
  /-- R118. -/
  | blkAligned (n : Nat) : Effect v .blkAligned (await (.alignedLens ⟨2, n⟩) v)
  /-- R119. -/
  | blkUncomp (n : Nat) : Effect v .blkUncomp (await (.uncompAlignR ⟨3, n⟩) v)
  /-- R121. -/
  | alignedLens (h : BlockHdr) (ls : List Nat) (haw : awaited v = .alignedLens h) (hls : lensOk 8 7 ls = true)
      (hbuilt : builtLens ls = true) :
      Effect v .alignedLens (await (.pretree h .mainLow) { v with sess := { v.sess with alLen := ls } })
  /-- R124. -/
  | pretree {t : State} (h : BlockHdr) (p : Pass) (ls : List Nat) (haw : awaited v = .pretree h p)
      (hls : lensOk 20 15 ls = true) (hbuilt : builtLens ls = true)
      (hpass : passContinue h p p.first { v with sess := { v.sess with preLen := ls } } = .ok () t) :
      Effect v .pretree t
  /-- R125 to R128. -/
  | run {i : Instr} {t : State} (h : BlockHdr) (p : Pass) (x k n : Nat) (haw : awaited v = .preSym h p x) (hn : n ≤ 16)
      (hpass : passWrite h p x k n v = .ok () t) : Effect v i t
  /-- R119, R115. -/
  | uncompAlignR (h : BlockHdr) (r0 r1 r2 : Word) (haw : awaited v = .uncompAlignR h) (hq : v.sess.rdQ = []) :
      Effect v .uncompAlignR (headerTail h .decUncomp (v.setR r0 r1 r2))
  /-- R133, R143. -/
  | emitted {i : Instr} (b : Byte) (hi : i = .mainLiteral b ∨ i = .rawByte b) : Effect v i (account 1 (emit b v))
  /-- R134. -/
  | lenFooter {i : Instr} (slot : Nat) (lh : BitVec 3) (hi : Instr.ofSlot slot lh = some i) :
      Effect v i (await (.lenFooter slot) v)
  /-- R139. -/
  | alignedFooter {i : Instr} (slot len : Nat)
      (hi : (∃ lh, Instr.ofSlot slot lh = some i) ∨ i = .lenFooter ∧ awaited v = .lenFooter slot) (h3 : 3 ≤ slot)
      (hb : v.sess.blockType = 2) : Effect v i (await (.alignedSym slot len) v)
  /-- R132, R140. -/
  | matched {i : Instr} (len off : Nat) (r : Word × Word × Word) (hi : isMatch i v) (hok : matchAllowed len off v) :
      Effect v i (account len ((copyMatch len off v).setR r.1 r.2.1 r.2.2))
  /-- R131. -/
  | oddPad (haw : awaited v = .oddPad) :
      Effect v .oddPad (afterElement (reinit (v.setReader (v.sess.rdC + 1) v.sess.rdQ)))

/-- The rows that read at least one bit of their own, behind their selector. -/
def minBits : Instr → Nat
  | .alignedLens => 1
  | .pretree => 1
  | .uncompAlignR => 1
  | .lenFooter => 1
  | .alignedSym => 1
  | _ => 0

/-- `t` is what the element makes of `s` where it raises no fault: its reads, then its effect. -/
def moved (i : Instr) (s t : State) : Prop := ∃ v, readOn (minBits i) (begin s) v ∧ Effect v i t

theorem moved_of_within {i : Instr} {s t : State} {f : State → Res Unit} {E : SessionError → Prop}
    (hf : (f (begin s)).within (fun _ t => moved i s t) E) (h : runElement s f = .next t) :
    moved i s t ∨ ∃ e, E e ∧ faulted e s t :=
  runElement_within hf h

/-- The faults of a block header and of its trees (43_lzx_blocks.md R115 to R128). -/
def headerFault (e : SessionError) : Prop :=
  e ∈ [.bitsExhausted, .bytesExhausted, .alignedInvalid, .pretreeInvalid, .maintreeInvalid, .lentreeInvalid, .runOverflow,
    .repeatSymbolInvalid, .pretreeEmpty]

/-- The faults of a match in any block (44_lzx_symbols.md R134 to R140). -/
def matchFault (e : SessionError) : Prop :=
  e ∈ [.bitsExhausted, .lentreeEmpty, .matchOverrun, .offsetZero, .offsetBeyondWindow, .offsetBeyondHistory]

/-- The faults that the meaning of a row can raise (60_exceptions.md R171). -/
def rowFault (i : Instr) (e : SessionError) : Prop :=
  match i with
  | .contRaw _ _ _ => e = .outCapacity
  | .contCompressed _ _ _ => e = .headerShort ∨ e = .outCapacity
  | .contBadmagic _ => e = .badMagic
  | .frameExt => e ∈ [.frameHeaderShort, .frameZeroSize, .frameOverTotal, .frameDataShort]
  | .frameStd _ => e ∈ [.frameHeaderShort, .frameZeroSize, .frameOverTotal, .frameDataShort]
  | .e8On => e = .bitsExhausted
  | .blkInvalid t => e = .bitsExhausted ∨ e = .blockType t
  | .rawCopy => False
  | .e8Off => False
  | .mainLiteral _ => False
  | .rawByte _ => False
  | .oddPad => False
  | .blkVerbatim => headerFault e
  | .blkAligned => headerFault e
  | .blkUncomp => headerFault e
  | .alignedLens => headerFault e
  | .pretree => headerFault e
  | .preDelta _ => headerFault e
  | .preZeroShort => headerFault e
  | .preZeroLong => headerFault e
  | .preRepeat => headerFault e
  | .uncompAlignR => headerFault e
  | .alignedSym => matchFault e ∨ e = .alignedEmpty
  | _ => matchFault e

/-! ## Containers and frames -/

theorem contRaw_moved {platform version flags : Byte} {s t : State}
    (h : exec (.contRaw platform version flags) s = .next t) :
    moved (.contRaw platform version flags) s t ∨ ∃ e, rowFault (.contRaw platform version flags) e ∧ faulted e s t := by
  obtain hfit | hover := Nat.lt_or_ge s.cfg.outCap (s.inLen - 10)
  · obtain ⟨u, hu, hf⟩ := exec_contRaw_over platform version flags hfit
    rw [hu] at h
    cases h
    exact .inr ⟨_, rfl, hf⟩
  · rw [exec_contRaw_ok platform version flags hover] at h
    cases h
    refine .inl ⟨_, readOn_of_drawsOnly (readLe32_drawsOnly (begin s) 6), ?_⟩
    have he := Effect.contRaw (v := ((begin s).readLe32 6).2) platform version flags ((begin s).readLe32 6).1
    rw [(readLe32_drawsOnly (begin s) 6 : ((begin s).readLe32 6).2 = _), begin_eq_record] at he ⊢
    exact he hover

theorem contCompressed_moved {platform version flags : Byte} {s t : State}
    (h : exec (.contCompressed platform version flags) s = .next t) :
    moved (.contCompressed platform version flags) s t
      ∨ ∃ e, rowFault (.contCompressed platform version flags) e ∧ faulted e s t := by
  obtain hshort | hlen := Nat.lt_or_ge s.inLen 14
  · obtain ⟨u, hu, hf⟩ := exec_contCompressed_short platform version flags hshort
    rw [hu] at h
    cases h
    exact .inr ⟨_, .inl rfl, hf⟩
  · obtain hover | hfit := Nat.lt_or_ge s.cfg.outCap (declaredSize platform version flags s).1.toNat
    · obtain ⟨u, hu, hf⟩ := exec_contCompressed_over platform version flags hlen hover
      rw [hu] at h
      cases h
      exact .inr ⟨_, .inr rfl, hf⟩
    · rw [exec_contCompressed_ok platform version flags hlen hfit] at h
      cases h
      refine .inl ⟨{ begin s with draws := (declaredSize platform version flags s).2.draws },
        readOn_of_drawsOnly rfl, ?_⟩
      rw [begin_eq_record]
      exact Effect.contCompressed platform version flags _ _ hlen hfit

/-- The raw copy keeps the form of `OUT`. -/
theorem copyPayload_memory (n i : Nat) {s : State} {c : Nat} (hc : i + n ≤ c) (hwf : s.out.wf = true)
    (hbelow : s.out.below c = true) : (copyPayload n i s).out.wf = true ∧ (copyPayload n i s).out.below c = true := by
  induction n generalizing i s with
  | zero => exact ⟨hwf, hbelow⟩
  | succ n ih =>
    have hout := drawsOnly_out (readIn_drawsOnly s (10 + i))
    refine ih (i + 1) (by omega) ?_ ?_
    · rw [State.setOut_out, hout]
      exact Memory.wf_set hwf _ _
    · rw [State.setOut_out, hout]
      exact Memory.below_set hbelow (by omega) _

theorem rawCopy_moved {s t : State} (h : exec .rawCopy s = .next t) : moved .rawCopy s t := by
  rw [exec_rawCopy] at h
  cases h
  refine ⟨{ begin s with draws := (copyPayload s.sess.decSize 0 (begin s)).draws }, readOn_of_drawsOnly rfl, ?_⟩
  have hmem (c : Nat) (hc : s.sess.decSize ≤ c) (hwf : s.out.wf = true) (hbelow : s.out.below c = true) :
      (copyPayload s.sess.decSize 0 (begin s)).out.wf = true
        ∧ (copyPayload s.sess.decSize 0 (begin s)).out.below c = true :=
    copyPayload_memory s.sess.decSize 0 (s := begin s) (c := c) (by omega) (by rwa [begin_out]) (by rwa [begin_out])
  generalize copyPayload s.sess.decSize 0 (begin s) = u at hmem ⊢
  rw [begin_eq_record]
  exact Effect.rawCopy u.out hmem

/-- `frame_start`, whatever its sizes (45_frame_demux.md R148). -/
theorem frameStart_within {a hl bs fs : Nat} {s : State} :
    (frameStart a hl bs fs s).within
      (fun _ t => bs ≠ 0 ∧ fs ≠ 0 ∧ fs ≤ s.sess.decSize - s.sess.produced ∧ a + hl + bs ≤ s.inLen
        ∧ frameStarted a hl bs fs s t)
      (· ∈ [.frameHeaderShort, .frameZeroSize, .frameOverTotal, .frameDataShort]) := by
  refine Res.within_check (by simp) fun hz => Res.within_check (by simp) fun ht => Res.within_check (by simp) fun hd => ?_
  obtain ⟨hbs, hfs⟩ := not_or.mp hz
  dsimp only
  cases hgo : frameStartGoto _ with
  | ok u t =>
    refine ⟨hbs, hfs, by omega, by omega, ?_⟩
    unfold frameStartGoto at hgo
    split at hgo
    · next hr =>
      cases hgo
      exact ⟨rfl, fun _ => rfl, fun h => absurd (h.symm.trans hr) (by decide),
        fun h => absurd (h.symm.trans hr) (by decide)⟩
    · next hr =>
      split at hgo
      · next h0 =>
        cases hgo
        exact ⟨rfl, fun h => absurd h hr, fun _ _ => rfl, fun _ hne => absurd h0 hne⟩
      · next h0 =>
        split at hgo
        · next d hd =>
          cases hgo
          exact ⟨rfl, fun h => absurd h hr, fun _ h => absurd h h0, fun _ _ => hd⟩
        · cases hgo
  | raise e d =>
    exfalso
    unfold frameStartGoto at hgo
    split at hgo
    · cases hgo
    · split at hgo
      · cases hgo
      · split at hgo <;> cases hgo
  | refuse r => trivial

/-- A frame header behind its reads. -/
theorem frame_moved {i : Instr} {s t u : State} {a hl bs fs : Nat} (hi : i = .frameExt ∨ ∃ h0, i = .frameStd h0)
    (hd : drawsOnly (begin s) u) (hexec : exec i s = runElement s fun _ => frameStart a hl bs fs u)
    (h : exec i s = .next t) : moved i s t ∨ ∃ e, rowFault i e ∧ faulted e s t := by
  rw [hexec] at h
  obtain ⟨hbs, hfs, htotal, hdata, hstart⟩ | ⟨e, he, hf⟩ := runElement_within (f := fun _ => frameStart a hl bs fs u) frameStart_within h
  · refine .inl ⟨u, ?_, Effect.frame a hl bs fs hi hbs hfs htotal hdata hstart⟩
    obtain rfl | ⟨h0, rfl⟩ := hi <;> exact readOn_of_drawsOnly hd
  · refine .inr ⟨e, ?_, hf⟩
    obtain rfl | ⟨h0, rfl⟩ := hi <;> exact he

theorem frameStd_moved {h0 : Byte} {s t : State} (h : exec (.frameStd h0) s = .next t) :
    moved (.frameStd h0) s t ∨ ∃ e, rowFault (.frameStd h0) e ∧ faulted e s t := by
  obtain hshort | hlen := Nat.lt_or_ge s.inLen (s.sess.inPos + 2)
  · obtain ⟨u, hu, hf⟩ := exec_frameStd_short hshort h0
    rw [hu] at h
    cases h
    exact .inr ⟨_, List.mem_cons_self .., hf⟩
  · obtain ⟨u, hd, hexec⟩ := exec_frameStd hlen h0
    exact frame_moved (.inr ⟨h0, rfl⟩) hd hexec h

theorem frameExt_moved {s t : State} (h : exec .frameExt s = .next t) :
    moved .frameExt s t ∨ ∃ e, rowFault .frameExt e ∧ faulted e s t := by
  obtain hshort | hlen := Nat.lt_or_ge s.inLen (s.sess.inPos + 5)
  · obtain ⟨u, hu, hf⟩ := exec_frameExt_short hshort
    rw [hu] at h
    cases h
    exact .inr ⟨_, List.mem_cons_self .., hf⟩
  · obtain ⟨u, hd, hexec⟩ := exec_frameExt hlen
    exact frame_moved (.inl rfl) hd hexec h

/-! ## Stream header and block headers -/

theorem e8Off_moved {s t : State} (h : exec .e8Off s = .next t) : moved .e8Off s t := by
  rw [exec_e8Off] at h
  cases h
  refine ⟨begin s, readOn_refl _, ?_⟩
  rw [begin_eq_record]
  exact Effect.e8 false 0 s.e8FileSize (.inl rfl)

theorem e8On_moved {s t : State} (h : exec .e8On s = .next t) :
    moved .e8On s t ∨ ∃ e, rowFault .e8On e ∧ faulted e s t := by
  have h : execE8On s = .next t := h
  refine moved_of_within (Res.within_bind (readBits_within _ _) fun hi u ⟨hu, _⟩ =>
    Res.within_bind (readBits_within _ _) fun lo v ⟨hv, _⟩ => ?_) h
  exact ⟨v, readOn_mono (readOn_trans hu hv) (Nat.zero_le _), Effect.e8 true _ _ (.inr rfl)⟩

theorem readBlockLen_within (s : State) :
    (readBlockLen s).within (fun _ t => readOn 0 s t) (· = .bitsExhausted) :=
  Res.within_bind (readBits_within _ s) fun _ u ⟨hu, _⟩ =>
    Res.within_bind (readBits_within _ u) fun _ _ ⟨hv, _⟩ => readOn_mono (readOn_trans hu hv) (Nat.zero_le _)

/-- The block headers whose body follows. -/
theorem blockHeader_moved {i : Instr} {c : Nat → Ctx} {s t : State} (hi : minBits i = 0)
    (heff : ∀ v n, Effect v i (await (c n) v))
    (h : runElement s (fun s => (readBlockLen s).bind fun n s => .ok () (await (c n) s)) = .next t) :
    moved i s t ∨ ∃ e, headerFault e ∧ faulted e s t := by
  refine moved_of_within (Res.within_bind (Res.within_mono (readBlockLen_within _) (fun _ _ => id) ?_)
    fun n v hv => ?_) h
  · rintro e rfl
    exact List.mem_cons_self ..
  · exact ⟨v, by rwa [hi], heff v n⟩

theorem blkInvalid_moved {type : BitVec 3} {s t : State} (h : exec (.blkInvalid type) s = .next t) :
    ∃ e, rowFault (.blkInvalid type) e ∧ faulted e s t := by
  have h : execBlkInvalid type s = .next t := h
  have hf : ((readBlockLen (begin s)).bind fun _ s => (.raise (.blockType type) s.draws : Res Unit)).within
      (fun _ _ => False) (rowFault (.blkInvalid type)) :=
    Res.within_bind (Res.within_mono (readBlockLen_within _) (fun _ _ => id) fun _ => .inl) fun _ _ _ =>
      (.inr rfl : rowFault (.blkInvalid type) (.blockType type))
  exact (runElement_within (f := fun s => (readBlockLen s).bind fun _ s => .raise (.blockType type) s.draws) hf h).resolve_left
    id

/-- The words of an Uncompressed block header, each from where the one before it ended (43_lzx_blocks.md R119). -/
theorem uncompAlignR_moved {s t : State} (h : exec .uncompAlignR s = .next t) :
    moved .uncompAlignR s t ∨ ∃ e, rowFault .uncompAlignR e ∧ faulted e s t := by
  have h : execUncompAlignR s = .next t := h
  have hcut (e : SessionError) (he : e = .bytesExhausted) : rowFault .uncompAlignR e := by
    rw [he]
    exact List.mem_cons_of_mem _ (List.mem_cons_self ..)
  refine moved_of_within ?_ h
  obtain ⟨hbits, heven⟩ := align16_bitsLeft (begin s)
  have hlen {s t : State} (h : readerOnly s t) : t.sess.frameLen = s.sess.frameLen := by rw [readerOnly_sess h]
  split
  · next hdr haw =>
    refine Res.within_bind (Res.within_mono (readWord32_within _) (fun _ _ => id) hcut) fun w0 u1 ⟨r1, c1, q1, _⟩ => ?_
    refine Res.within_bind (Res.within_mono (readWord32_within _) (fun _ _ => id) hcut) fun w1 u2 ⟨r2, c2, q2, _⟩ => ?_
    refine Res.within_bind (Res.within_mono (readWord32_within _) (fun _ _ => id) hcut) fun w2 u3 ⟨r3, c3, q3, l3⟩ => ?_
    have hread := readerOnly_trans (align16_readerOnly (begin s)) (readerOnly_trans r1 (readerOnly_trans r2 r3))
    have hq : u3.sess.rdQ = [] := by rw [q3, q2, q1, align16_rdQ]
    refine ⟨u3, ⟨hread, fun h0 => ?_, by rw [hq]; exact Nat.zero_le _, ?_⟩,
      Effect.uncompAlignR hdr w0 w1 w2 ((readerOnly_awaited hread).trans haw) hq⟩
    · have := heven h0
      omega
    · have h2 := hlen (readerOnly_trans (align16_readerOnly (begin s)) (readerOnly_trans r1 r2))
      have h3 := hlen hread
      have h0 := hlen (align16_readerOnly (begin s))
      simp only [bitsLeft, align16_rdQ, List.countP_nil] at hbits
      rw [bitsLeft, hq, List.countP_nil, minBits, bitsLeft]
      omega
  · trivial

/-! ## Tree descriptions -/

theorem lensOk_of_fields {n k m : Nat} {ls : List Nat} (hk : ls.length = k) (hlt : ∀ v ∈ ls, v < 2 ^ n)
    (hm : 2 ^ n = m + 1) : lensOk k m ls = true := by
  rw [lensOk_iff]
  exact ⟨hk, fun l hl => by have := hlt l hl; omega⟩

theorem build_within (tr : Tree) (s : State) :
    (build tr s).within (fun _ t => t = s ∧ builtLens (tr.lens s) = true) (· = tr.invalid) :=
  Res.within_of_post (build_post tr s)

theorem alignedLens_moved {s t : State} (h : exec .alignedLens s = .next t) :
    moved .alignedLens s t ∨ ∃ e, rowFault .alignedLens e ∧ faulted e s t := by
  have h : execAlignedLens s = .next t := h
  refine moved_of_within ?_ h
  split
  · next hdr haw =>
    have hcut (e : SessionError) (he : e = .bitsExhausted) : headerFault e := by simp [he, headerFault]
    have hinvalid (e : SessionError) (he : e = .alignedInvalid) : headerFault e := by
      simp [he, headerFault]
    refine Res.within_bind (Res.within_mono (readFields_within _ 8 _) (fun _ _ => id) hcut)
      fun ls u ⟨hu, hlen, hlt⟩ => Res.within_bind (Res.within_mono (build_within .aligned _) (fun _ _ => id) hinvalid) ?_
    · rintro - v ⟨rfl, hbuilt⟩
      exact ⟨u, readOn_mono hu (Nat.le_of_ble_eq_true rfl), Effect.alignedLens hdr ls ((readerOnly_awaited hu.1).trans haw)
        (lensOk_of_fields hlen hlt rfl) hbuilt⟩
  · trivial

/-- The end of a pass can only find a tree that is not built (43_lzx_blocks.md R122). -/
theorem passContinue_within (h : BlockHdr) (p : Pass) (x : Nat) (s : State) :
    (passContinue h p x s).within (fun _ t => passContinue h p x s = .ok () t) headerFault := by
  cases hc : passContinue h p x s with
  | ok a t => rfl
  | raise e d =>
    have hend : e = .maintreeInvalid ∨ e = .lentreeInvalid := by
      unfold passContinue at hc
      split at hc
      · cases hc
      · cases p with
        | mainLow => cases hc
        | mainHigh =>
          have hb := build_within .main s
          simp only [passEnd] at hc
          cases hbuild : build .main s with
          | ok a u => rw [hbuild] at hc; cases hc
          | raise e' d' => rw [hbuild] at hc hb; cases hc; exact .inl hb
          | refuse r => rw [hbuild] at hc; cases hc
        | lengths =>
          have hb := build_within .len s
          simp only [passEnd] at hc
          cases hbuild : build .len s with
          | ok a u => rw [hbuild] at hc; cases hc
          | raise e' d' => rw [hbuild] at hc hb; cases hc; exact .inr hb
          | refuse r => rw [hbuild] at hc; cases hc
    obtain rfl | rfl := hend
    · simp [Res.within, headerFault]
    · simp [Res.within, headerFault]
  | refuse r => trivial

theorem pretree_moved {s t : State} (h : exec .pretree s = .next t) :
    moved .pretree s t ∨ ∃ e, rowFault .pretree e ∧ faulted e s t := by
  have h : execPretree s = .next t := h
  refine moved_of_within ?_ h
  split
  · next hdr p haw =>
    have hcut (e : SessionError) (he : e = .bitsExhausted) : headerFault e := by simp [he, headerFault]
    have hinvalid (e : SessionError) (he : e = .pretreeInvalid) : headerFault e := by
      simp [he, headerFault]
    refine Res.within_bind (Res.within_mono (readFields_within _ 20 _) (fun _ _ => id) hcut)
      fun ls u ⟨hu, hlen, hlt⟩ => Res.within_bind (Res.within_mono (build_within .pre _) (fun _ _ => id) hinvalid) ?_
    · rintro - v ⟨rfl, hbuilt⟩
      exact Res.within_mono (passContinue_within ..) (fun _ _ hpass => ⟨u, readOn_mono hu (by decide),
        Effect.pretree hdr p ls ((readerOnly_awaited hu.1).trans haw) (lensOk_of_fields hlen hlt rfl) hbuilt hpass⟩)
        fun _ => id
  · trivial

theorem deltaMod17_le (old z : Nat) : deltaMod17 old z ≤ 16 := by
  unfold deltaMod17
  omega

/-- The end of every pretree symbol: its run is written behind its reads. -/
theorem passWrite_moved {i : Instr} {h : BlockHdr} {p : Pass} {x k n : Nat} {s v : State} (hi : minBits i = 0)
    (haw : awaited (begin s) = .preSym h p x) (hread : readOn 0 (begin s) v) (hn : n ≤ 16) :
    (passWrite h p x k n v).within (fun _ t => moved i s t) headerFault :=
  Res.within_mono (passContinue_within ..) (fun _ _ hpass => ⟨v, by rwa [hi],
    Effect.run h p x k n ((readerOnly_awaited hread.1).trans haw) hn hpass⟩) fun _ => id

theorem preDelta_moved {z : BitVec 5} {s t : State} (h : exec (.preDelta z) s = .next t) :
    moved (.preDelta z) s t ∨ ∃ e, headerFault e ∧ faulted e s t := by
  have h : execPreDelta z s = .next t := h
  refine moved_of_within ?_ h
  split
  · next haw => exact passWrite_moved rfl haw (readOn_refl _) (deltaMod17_le _ _)
  · trivial

/-- PRE_ZERO_SHORT and PRE_ZERO_LONG. -/
theorem zeroRun_moved {i : Instr} {n k0 : Nat} {s t : State} (hi : minBits i = 0)
    (h : runElement s (zeroRun n k0) = .next t) : moved i s t ∨ ∃ e, headerFault e ∧ faulted e s t := by
  refine moved_of_within ?_ h
  unfold zeroRun
  split
  · next haw =>
    refine Res.within_bind (Res.within_mono (readBits_within _ _) (fun _ _ => id) ?_) fun f u ⟨hu, _⟩ =>
      Res.within_check (by simp [headerFault]) fun _ =>
        passWrite_moved hi haw (readOn_mono hu (Nat.zero_le _)) (Nat.zero_le _)
    rintro e rfl
    exact List.mem_cons_self ..
  · trivial

theorem preRepeat_moved {s t : State} (h : exec .preRepeat s = .next t) :
    moved .preRepeat s t ∨ ∃ e, headerFault e ∧ faulted e s t := by
  have h : execPreRepeat s = .next t := h
  refine moved_of_within ?_ h
  split
  · next haw =>
    refine Res.within_bind (Res.within_mono (readBits_within _ _) (fun _ _ => id) ?_) fun f u ⟨hu, _⟩ =>
      Res.within_check (by simp [headerFault]) fun _ =>
        Res.within_bind (Res.within_mono (decodeSymbol_within .pre u) (fun _ _ => id) ?_) fun z2 w ⟨hw, _⟩ =>
          Res.within_check (by simp [headerFault]) fun _ =>
            passWrite_moved rfl haw (readOn_mono (readOn_trans hu hw) (Nat.zero_le _)) (deltaMod17_le _ _)
    · rintro e rfl
      exact List.mem_cons_self ..
    · rintro e (rfl | rfl)
      · simp [headerFault, Tree.empty]
      · exact List.mem_cons_self ..
  · trivial

/-! ## Symbols -/

theorem checkMatch_matchFault {len off : Nat} {s : State} {e : SessionError} (h : checkMatch len off s = some e) :
    matchFault e := by
  unfold checkMatch at h
  split at h
  · cases h; simp [matchFault]
  · split at h
    · cases h; simp [matchFault]
    · split at h
      · cases h; simp [matchFault]
      · split at h
        · cases h; simp [matchFault]
        · cases h

/-- The end of a match behind its reads. -/
theorem finishMatch_within {i : Instr} {len off : Nat} {r : Word × Word × Word} {v : State} (hi : isMatch i v) :
    (finishMatch len off r v).within (fun _ t => Effect v i t) matchFault := by
  unfold finishMatch
  split
  · next e he => exact checkMatch_matchFault he
  · next hok => exact Effect.matched len off r hi ((checkMatch_eq_none len off v).mp hok)

theorem isMatch_readOn {i : Instr} {n : Nat} {u v : State} (h : isMatch i u) (hread : readOn n u v) : isMatch i v := by
  unfold isMatch at *
  rwa [readerOnly_awaited hread.1]

/-- The slot's rule from the length on: the match ends, or awaits its aligned footer. -/
theorem matchOffset_within {i : Instr} {slot len : Nat} {u : State} (hi : isMatch i u)
    (hslot : (∃ lh, Instr.ofSlot slot lh = some i) ∨ i = .lenFooter ∧ awaited u = .lenFooter slot) :
    (matchOffset slot len u).within (fun _ t => ∃ v, readOn 0 u v ∧ Effect v i t) matchFault := by
  have here {x : Res Unit} (hx : x.within (fun _ t => Effect u i t) matchFault) :
      x.within (fun _ t => ∃ v, readOn 0 u v ∧ Effect v i t) matchFault :=
    Res.within_mono hx (fun _ _ he => ⟨u, readOn_refl u, he⟩) fun _ => id
  unfold matchOffset
  split
  · exact here (finishMatch_within hi)
  · split
    · exact here (finishMatch_within hi)
    · split
      · exact here (finishMatch_within hi)
      · split
        · next haligned => exact here (Effect.alignedFooter slot len hslot (by omega) haligned.1)
        · refine Res.within_bind (Res.within_mono (readBits_within _ u) (fun _ _ => id) ?_) fun w v ⟨hv, _⟩ => ?_
          · rintro e rfl
            exact List.mem_cons_self ..
          · exact Res.within_mono (finishMatch_within (isMatch_readOn hi hv))
              (fun _ _ he => ⟨v, readOn_mono hv (Nat.zero_le _), he⟩) fun _ => id

/-- A match symbol: its length footer is awaited, or its slot's rule follows (44_lzx_symbols.md R132, R134). -/
theorem matchSymbol_moved {i : Instr} {slot : Nat} {lh : BitVec 3} {s t : State}
    (hexec : exec i s = runElement s (matchSymbol slot lh)) (hi : Instr.ofSlot slot lh = some i) (h0 : minBits i = 0)
    (h : exec i s = .next t) : moved i s t ∨ ∃ e, matchFault e ∧ faulted e s t := by
  rw [hexec] at h
  refine moved_of_within ?_ h
  by_cases h7 : lh = 7
  · rw [h7, matchSymbol_of_eq]
    exact ⟨begin s, by rw [h0]; exact readOn_refl _, Effect.lenFooter slot lh hi⟩
  · rw [matchSymbol_of_ne h7]
    refine Res.within_mono (matchOffset_within (.inl ⟨slot, lh, hi⟩) (.inl ⟨lh, hi⟩))
      (fun _ _ hm => ?_) fun _ => id
    rwa [moved, h0]

theorem lenFooter_moved {s t : State} (h : exec .lenFooter s = .next t) :
    moved .lenFooter s t ∨ ∃ e, rowFault .lenFooter e ∧ faulted e s t := by
  have h : execLenFooter s = .next t := h
  refine moved_of_within ?_ h
  split
  · next slot haw =>
    have hcut (e : SessionError) (he : e = .lentreeEmpty ∨ e = .bitsExhausted) : matchFault e := by
      obtain rfl | rfl := he <;> simp [matchFault]
    refine Res.within_bind (Res.within_mono (decodeSymbol_within .len _) (fun _ _ => id) hcut) fun w u ⟨hu, _⟩ => ?_
    · have haw' : awaited u = .lenFooter slot := (readerOnly_awaited hu.1).trans haw
      refine Res.within_mono (matchOffset_within (i := .lenFooter) (.inr (.inl ⟨rfl, slot, haw'⟩)) (.inr ⟨rfl, haw'⟩)) ?_ fun _ => id
      rintro - t ⟨v, hv, he⟩
      exact ⟨v, readOn_trans hu hv, he⟩
  · trivial

theorem alignedSym_moved {s t : State} (h : exec .alignedSym s = .next t) :
    moved .alignedSym s t ∨ ∃ e, rowFault .alignedSym e ∧ faulted e s t := by
  have h : execAlignedSym s = .next t := h
  refine moved_of_within ?_ h
  split
  · next slot len haw =>
    refine Res.within_bind (Res.within_mono (readBits_within _ _) (fun _ _ => id) ?_) fun hi u ⟨hu, _⟩ =>
      Res.within_bind (Res.within_mono (decodeSymbol_within .aligned u) (fun _ _ => id) ?_) fun a v ⟨hv, _⟩ => ?_
    · rintro e rfl
      exact .inl (List.mem_cons_self ..)
    · rintro e (rfl | rfl)
      · exact .inr rfl
      · exact .inl (List.mem_cons_self ..)
    · have hread := readOn_mono (readOn_trans hu hv) (m := 1) (by omega)
      refine Res.within_mono (finishMatch_within (i := .alignedSym) (.inr (.inr ⟨rfl, slot, len, ?_⟩)))
        (fun _ _ he => ⟨v, hread, he⟩) fun _ => .inl
      exact (readerOnly_awaited hread.1).trans haw
  · trivial

/-- MAIN_LITERAL and RAW_BYTE. -/
theorem emit_moved {i : Instr} {b : Byte} {s : State} (hi : i = .mainLiteral b ∨ i = .rawByte b) :
    moved i s (account 1 (emit b (begin s))) := by
  refine ⟨begin s, ?_, Effect.emitted b hi⟩
  obtain rfl | rfl := hi <;> exact readOn_refl _

theorem oddPad_moved {s t : State} (h : exec .oddPad s = .next t) : moved .oddPad s t := by
  have h : execOddPad s = .next t := h
  refine (moved_of_within (E := fun _ => False) ?_ h).resolve_right (by rintro ⟨_, he, -⟩; exact he)
  split
  · next haw => exact ⟨begin s, readOn_refl _, Effect.oddPad haw⟩
  · trivial

/-! ## All elements -/

/-- Everything an element of the engine can do: its effect behind its reads, or a fault of its row. -/
theorem exec_moved {i : Instr} {s t : State} (hhost : isHost i = false) (h : exec i s = .next t) :
    moved i s t ∨ ∃ e, rowFault i e ∧ faulted e s t := by
  cases i with
  | contRaw platform version flags => exact contRaw_moved h
  | contCompressed platform version flags => exact contCompressed_moved h
  | contBadmagic magic =>
    obtain ⟨u, hu, hf⟩ := exec_contBadmagic magic s
    rw [hu] at h
    cases h
    exact .inr ⟨_, rfl, hf⟩
  | rawCopy => exact .inl (rawCopy_moved h)
  | frameExt => exact frameExt_moved h
  | frameStd h0 => exact frameStd_moved h
  | e8Off => exact .inl (e8Off_moved h)
  | e8On => exact e8On_moved h
  | blkVerbatim => exact blockHeader_moved (c := fun n => .pretree ⟨1, n⟩ .mainLow) rfl (fun v n => Effect.blkVerbatim n) h
  | blkAligned => exact blockHeader_moved (c := fun n => .alignedLens ⟨2, n⟩) rfl (fun v n => Effect.blkAligned n) h
  | blkUncomp => exact blockHeader_moved (c := fun n => .uncompAlignR ⟨3, n⟩) rfl (fun v n => Effect.blkUncomp n) h
  | blkInvalid type => exact .inr (blkInvalid_moved h)
  | alignedLens => exact alignedLens_moved h
  | pretree => exact pretree_moved h
  | preDelta z => exact preDelta_moved h
  | preZeroShort => exact zeroRun_moved (n := 4) (k0 := 4) rfl h
  | preZeroLong => exact zeroRun_moved (n := 5) (k0 := 20) rfl h
  | preRepeat => exact preRepeat_moved h
  | mainLiteral b =>
    cases h
    exact .inl (emit_moved (.inl rfl))
  | rawByte b =>
    cases h
    exact .inl (emit_moved (.inr rfl))
  | matchR0 lh | matchR1 lh | matchR2 lh | matchS3 lh | matchS4 lh | matchS5 lh | matchS6 lh | matchS7 lh | matchS8 lh
  | matchS9 lh | matchS10 lh | matchS11 lh | matchS12 lh | matchS13 lh | matchS14 lh | matchS15 lh | matchS16 lh
  | matchS17 lh | matchS18 lh | matchS19 lh | matchS20 lh | matchS21 lh | matchS22 lh | matchS23 lh | matchS24 lh
  | matchS25 lh | matchS26 lh | matchS27 lh | matchS28 lh | matchS29 lh | matchS30 lh | matchS31 lh | matchS32 lh
  | matchS33 lh | matchS34 lh | matchS35 lh => exact matchSymbol_moved (lh := lh) rfl rfl rfl h
  | lenFooter => exact lenFooter_moved h
  | alignedSym => exact alignedSym_moved h
  | uncompAlignR => exact uncompAlignR_moved h
  | oddPad => exact .inl (oddPad_moved h)
  | csrRead | csrWrite | start | softReset | irqEn | w1c | inLen | inWrite | inRead | outRead | outWrite | busError =>
    cases hhost

end Sys2Proof.Machine
end

section
/-! SUPPORT. The turn and the fetch, said once: whose turn it is, which word the engine's state or the element awaited selects,
and what reading it changes (10_state.md R39, 30_encoding.md R81). -/

namespace Sys2Proof.Machine

/-! ## The step behind its fetch -/

theorem instrOf_eq_some {p : Params} {w : Fetched} {i : Instr} :
    instrOf p w = some i ↔ decode p w = .ok i ∧ i.wellFormed p = true := by
  unfold instrOf
  split
  · next j hj =>
    rw [hj]
    split
    · next hwf =>
      constructor
      · intro h
        cases h
        exact ⟨rfl, hwf⟩
      · rintro ⟨h, -⟩
        cases h
        rfl
    · next hwf =>
      constructor
      · intro h
        cases h
      · rintro ⟨h, hi⟩
        cases h
        exact absurd hi hwf
  · next r hr =>
    rw [hr]
    constructor
    · intro h
      cases h
    · rintro ⟨h, -⟩
      cases h

section
variable {s t : State} (hv : s.cfg.valid = true)
include hv

theorem step_of_quiet (h : fetch s = .quiet t) : step s = .next t := by
  rw [step, if_neg (by rw [hv]; decide), h]

theorem step_of_reset (h : fetch s = .reset t) : step s = .next (hardReset t) := by
  rw [step, if_neg (by rw [hv]; decide), h]

theorem step_of_complete (h : fetch s = .complete t) : step s = .next (endDone t) := by
  rw [step, if_neg (by rw [hv]; decide), h]

theorem step_of_element {w : Fetched} {i : Instr} (h : fetch s = .element w t) (hi : instrOf t.cfg w = some i) :
    step s = exec i t := by
  rw [step, if_neg (by rw [hv]; decide), h]
  simp only [hi]

theorem step_of_raised {e : SessionError} {d : Nat} (h : fetch s = .raised e d t) :
    step s = .next (takeFault e d (begin t)) := by
  rw [step, if_neg (by rw [hv]; decide), h]

end

/-! ## Whose turn it is -/

/-- The state behind the taking of a turn: off the schedule where no step is in progress (20_memory.md R61). -/
def atTurn (s : State) : State := { s with sched := if s.pend = none then s.sched.tail else s.sched }

theorem atTurn_of_pend {s : State} {p : Pending} (h : s.pend = some p) : atTurn s = s := by
  unfold atTurn
  rw [if_neg (by rw [h]; exact Option.some_ne_none p)]

theorem atTurn_of_none {s : State} (h : s.pend = none) : atTurn s = { s with sched := s.sched.tail } := by
  unfold atTurn
  rw [if_pos h]

theorem atTurn_of_nil {s : State} (h : s.sched = []) : atTurn s = s := by
  unfold atTurn
  rw [h, List.tail_nil, ite_self, ← h]

/-- The reading of the word of the engine's next element, in the state with its step opened. -/
def selector (s : State) : Option (Res Fetched) :=
  match s.pend with
  | some p => fetchByContext p.ctx s
  | none => fetchByState (begin s)

theorem fetch_of_pend {s : State} {p : Pending} (h : s.pend = some p) :
    fetch s = turnedOf s (fetchByContext p.ctx s) := by
  rw [fetch, h]

theorem fetch_of_nil {s : State} (hp : s.pend = none) (hs : s.sched = []) : fetch s = engineTurn s := by
  rw [fetch, hp]
  simp only [hs]

theorem fetch_of_engine {s : State} {rest : List Turn} (hp : s.pend = none) (hs : s.sched = .engine :: rest) :
    fetch s = engineTurn { s with sched := rest } := by
  rw [fetch, hp]
  simp only [hs]

theorem fetch_of_rst {s : State} {rest : List Turn} (hp : s.pend = none) (hs : s.sched = .rst :: rest) :
    fetch s = .reset { s with sched := rest } := by
  rw [fetch, hp]
  simp only [hs]

theorem fetch_of_host {s : State} {a : Access} {rest : List Turn} (hp : s.pend = none) (hs : s.sched = .host a :: rest) :
    fetch s = .element (.host a) { s with sched := rest } := by
  rw [fetch, hp]
  simp only [hs]

/-- The engine's turn between two steps, in its three cases (60_exceptions.md R186, 45_frame_demux.md R145). -/
theorem engineTurn_cases {s : State} (hp : s.pend = none) :
    (s.busy = false ∧ engineTurn s = .quiet s)
      ∨ (s.busy = true ∧ (s.sess.ds = .frameHdr ∧ s.sess.produced = s.sess.decSize) ∧ engineTurn s = .complete s)
      ∨ (s.busy = true ∧ ¬(s.sess.ds = .frameHdr ∧ s.sess.produced = s.sess.decSize)
        ∧ engineTurn s = turnedOf s (selector s)) := by
  unfold engineTurn
  split
  · next hb => exact .inl ⟨hb, rfl⟩
  · next hb =>
    have hb : s.busy = true := by simpa using hb
    split
    · next hc => exact .inr (.inl ⟨hb, hc, rfl⟩)
    · next hc => exact .inr (.inr ⟨hb, hc, by rw [selector, hp]⟩)

/-- Everything a turn can be. -/
inductive FetchCase (s : State) : Turned → Prop where
  | quiet (hp : s.pend = none) (hb : s.busy = false) : FetchCase s (.quiet (atTurn s))
  | reset (hp : s.pend = none) (hs : s.sched ≠ []) : FetchCase s (.reset (atTurn s))
  | complete (hp : s.pend = none) (hb : s.busy = true) (hds : s.sess.ds = .frameHdr)
      (hall : s.sess.produced = s.sess.decSize) : FetchCase s (.complete (atTurn s))
  | host (hp : s.pend = none) (a : Access) (hs : s.sched ≠ []) : FetchCase s (.element (.host a) (atTurn s))
  | engine (hgo : s.pend = none → s.busy = true ∧ ¬(s.sess.ds = .frameHdr ∧ s.sess.produced = s.sess.decSize)) :
      FetchCase s (turnedOf (atTurn s) (selector (atTurn s)))

theorem fetchCase_of_engineTurn {s : State} (hp : s.pend = none) : FetchCase s (engineTurn (atTurn s)) := by
  obtain ⟨hb, hq⟩ | ⟨hb, ⟨hds, hall⟩, hq⟩ | ⟨hb, hc, hq⟩ := engineTurn_cases (s := atTurn s) hp
  · rw [hq]
    exact .quiet hp hb
  · rw [hq]
    exact .complete hp hb hds hall
  · rw [hq]
    exact .engine fun _ => ⟨hb, hc⟩

theorem fetchCase (s : State) : FetchCase s (fetch s) := by
  cases hp : s.pend with
  | some p =>
    have h : fetch s = turnedOf (atTurn s) (selector (atTurn s)) := by
      rw [atTurn_of_pend hp, fetch_of_pend hp, selector, hp]
    rw [h]
    exact .engine fun h => (Option.some_ne_none p (hp.symm.trans h)).elim
  | none =>
    have hturn {a : Turn} {rest : List Turn} (hs : s.sched = a :: rest) : { s with sched := rest } = atTurn s := by
      rw [atTurn_of_none hp, hs, List.tail_cons]
    cases hs : s.sched with
    | nil =>
      have h : fetch s = engineTurn (atTurn s) := by rw [atTurn_of_nil hs, fetch_of_nil hp hs]
      exact h ▸ fetchCase_of_engineTurn hp
    | cons a rest =>
      cases a with
      | engine =>
        have h : fetch s = engineTurn (atTurn s) := by rw [fetch_of_engine hp hs, hturn hs]
        exact h ▸ fetchCase_of_engineTurn hp
      | rst =>
        rw [fetch_of_rst hp hs, hturn hs]
        exact .reset hp (by rw [hs]; nofun)
      | host a =>
        rw [fetch_of_host hp hs, hturn hs]
        exact .host hp a (by rw [hs]; nofun)

/-! ## The selecting words -/

/-- What the engine can read as the word of its next element, in the state `v` with its step opened, and the state behind the
read: by the element awaited, or at a step's start by the engine state. -/
inductive Selected (v : State) : Fetched → State → Prop where
  | badMagic {t : State} (magic : BitVec 24) (hds : v.sess.ds = .container) (haw : awaited v = .started)
      (hne : magic ≠ v.cfg.magicWord) (hd : drawsOnly v t) : Selected v (.container (magic ++ 0#24)) t
  | container {t : State} (platform version flags : Byte) (hds : v.sess.ds = .container) (haw : awaited v = .started)
      (hd : drawsOnly v t) (hlen : 10 ≤ v.inLen) :
      Selected v (.container (v.cfg.magicWord ++ platform ++ version ++ flags)) t
  | rawPayload (hds : v.sess.ds = .rawCopy) (haw : awaited v = .started) : Selected v .rawPayload v
  | frame {t : State} (h0 : Byte) (hds : v.sess.ds = .frameHdr) (haw : awaited v = .started) (hd : drawsOnly v t) :
      Selected v (.frame h0) t
  | stream {t : State} (x : BitVec 1) (hds : v.sess.ds = .streamHdr) (haw : awaited v = .started) (hr : readOn 1 v t) :
      Selected v (.stream x) t
  | block {t : State} (x : BitVec 3) (hds : v.sess.ds = .blockHdr) (haw : awaited v = .started) (hr : readOn 3 v t) :
      Selected v (.block x) t
  | mainSym {t : State} (m : Nat) (hds : v.sess.ds = .decVerbatim ∨ v.sess.ds = .decAligned) (haw : awaited v = .started)
      (hm : m < v.sess.mainLen.length) (hr : readOn 1 v t) : Selected v (.mainSym (BitVec.ofNat 10 m)) t
  | rawByte {t : State} (b : Byte) (hds : v.sess.ds = .decUncomp) (haw : awaited v = .started) (hr : readerOnly v t)
      (hc : t.sess.rdC = v.sess.rdC + 1) (hq : t.sess.rdQ = v.sess.rdQ) (hl : v.sess.rdC < v.sess.frameLen) :
      Selected v (.rawByte b) t
  | alignedLens (h : BlockHdr) (haw : awaited v = .alignedLens h) : Selected v .alignedLens v
  | pretree (h : BlockHdr) (p : Pass) (haw : awaited v = .pretree h p) : Selected v .pretree v
  | preSym {t : State} (h : BlockHdr) (p : Pass) (x z : Nat) (haw : awaited v = .preSym h p x)
      (hz : z < v.sess.preLen.length) (hr : readOn 1 v t) : Selected v (.preSym (BitVec.ofNat 5 z)) t
  | lenFooter (slot : Nat) (haw : awaited v = .lenFooter slot) : Selected v (.lenFooter 7) v
  | alignedSym (slot len : Nat) (haw : awaited v = .alignedSym slot len) : Selected v .alignedSym v
  | uncompBody (h : BlockHdr) (haw : awaited v = .uncompAlignR h) : Selected v .uncompBody v
  | oddPad (haw : awaited v = .oddPad) : Selected v .oddPad v

/-- The faults of reading a selecting word, by what selects it. -/
inductive SelectFault (v : State) : SessionError → Prop where
  | headerShort (hds : v.sess.ds = .container) : SelectFault v .headerShort
  | frameHeaderShort (hds : v.sess.ds = .frameHdr) : SelectFault v .frameHeaderShort
  | bits (hds : v.sess.ds = .streamHdr ∨ v.sess.ds = .blockHdr ∨ v.sess.ds = .decVerbatim ∨ v.sess.ds = .decAligned) :
      SelectFault v .bitsExhausted
  | maintreeEmpty (hds : v.sess.ds = .decVerbatim ∨ v.sess.ds = .decAligned) : SelectFault v .maintreeEmpty
  | bytes (hds : v.sess.ds = .decUncomp) : SelectFault v .bytesExhausted
  | pretreeEmpty (h : BlockHdr) (p : Pass) (x : Nat) (haw : awaited v = .preSym h p x) : SelectFault v .pretreeEmpty
  | pretreeBits (h : BlockHdr) (p : Pass) (x : Nat) (haw : awaited v = .preSym h p x) : SelectFault v .bitsExhausted

/-- The container word: its three signature bytes, and the three behind them where it is a container. -/
theorem fetchContainer_within {v : State} (hds : v.sess.ds = .container) (haw : awaited v = .started) :
    (fetchContainer v).within (Selected v) (SelectFault v) := by
  have h0 := readIn_drawsOnly v 0
  have h1 := drawsOnly_trans h0 (readIn_drawsOnly _ 1)
  have h2 := drawsOnly_trans h1 (readIn_drawsOnly _ 2)
  have h3 := drawsOnly_trans h2 (readIn_drawsOnly _ 3)
  have h4 := drawsOnly_trans h3 (readIn_drawsOnly _ 4)
  have h5 := drawsOnly_trans h4 (readIn_drawsOnly _ 5)
  refine Res.within_check (.headerShort hds) fun _ => ?_
  dsimp only
  split
  · next hne => exact .badMagic _ hds haw hne h2
  · next heq =>
    have heq := not_not.mp heq
    refine Res.within_check (.headerShort hds) fun hlen => ?_
    rw [heq]
    exact .container _ _ _ hds haw h5 (Nat.le_of_not_lt hlen)

/-- At a step's start the engine state selects (10_state.md R39). -/
theorem fetchByState_within {v : State} {r : Res Fetched} (haw : awaited v = .started) (h : fetchByState v = some r) :
    r.within (Selected v) (SelectFault v) := by
  have main (hds : v.sess.ds = .decVerbatim ∨ v.sess.ds = .decAligned) :
      (fetchMain v).within (Selected v) (SelectFault v) := by
    have hraise (e : SessionError) (he : e = Tree.empty .main ∨ e = .bitsExhausted) : SelectFault v e := by
      obtain rfl | rfl := he
      · exact .maintreeEmpty hds
      · exact .bits (.inr (.inr hds))
    exact Res.within_bind (Res.within_mono (decodeSymbol_within .main v) (fun _ _ => id) hraise)
      fun m t ⟨hr, hm⟩ => .mainSym m hds haw hm hr
  unfold fetchByState at h
  cases hds : v.sess.ds with
  | idle => rw [hds] at h; cases h
  | done => rw [hds] at h; cases h
  | failed => rw [hds] at h; cases h
  | container => rw [hds] at h; cases h; exact fetchContainer_within hds haw
  | rawCopy => rw [hds] at h; cases h; exact .rawPayload hds haw
  | frameHdr =>
    rw [hds] at h
    cases h
    exact Res.within_check (.frameHeaderShort hds) fun _ => .frame _ hds haw (readIn_drawsOnly v _)
  | streamHdr =>
    rw [hds] at h
    cases h
    exact Res.within_bind (Res.within_mono (readBits_within 1 v) (fun _ _ => id) fun e he => he ▸ .bits (.inl hds))
      fun x t ⟨hr, _⟩ => .stream _ hds haw hr
  | blockHdr =>
    rw [hds] at h
    cases h
    exact Res.within_bind (Res.within_mono (readBits_within 3 v) (fun _ _ => id) fun e he => he ▸ .bits (.inr (.inl hds)))
      fun x t ⟨hr, _⟩ => .block _ hds haw hr
  | decVerbatim => rw [hds] at h; cases h; exact main (.inl hds)
  | decAligned => rw [hds] at h; cases h; exact main (.inr hds)
  | decUncomp =>
    rw [hds] at h
    cases h
    have hb := Res.within_of_post (readByte_post v)
    exact Res.within_bind (Res.within_mono hb (fun _ _ => id) fun e he => he ▸ .bytes hds)
      fun b t ⟨hr, hc, hq, hl, _⟩ => .rawByte b hds haw hr hc hq hl

/-- Inside a step the element awaited selects (30_encoding.md R81). -/
theorem fetchByContext_within {v : State} {r : Res Fetched} (h : fetchByContext (awaited v) v = some r) :
    r.within (Selected v) (SelectFault v) := by
  unfold fetchByContext at h
  cases haw : awaited v with
  | started => rw [haw] at h; cases h
  | alignedLens b => rw [haw] at h; cases h; exact .alignedLens b haw
  | pretree b p => rw [haw] at h; cases h; exact .pretree b p haw
  | preSym b p x =>
    rw [haw] at h
    cases h
    have hraise (e : SessionError) (he : e = Tree.empty .pre ∨ e = .bitsExhausted) : SelectFault v e := by
      obtain rfl | rfl := he
      · exact .pretreeEmpty b p x haw
      · exact .pretreeBits b p x haw
    exact Res.within_bind (Res.within_mono (decodeSymbol_within .pre v) (fun _ _ => id) hraise)
      fun z t ⟨hr, hz⟩ => .preSym b p x z haw hz hr
  | lenFooter slot => rw [haw] at h; cases h; exact .lenFooter slot haw
  | alignedSym slot len => rw [haw] at h; cases h; exact .alignedSym slot len haw
  | uncompAlignR b => rw [haw] at h; cases h; exact .uncompBody b haw
  | oddPad => rw [haw] at h; cases h; exact .oddPad haw

theorem selector_within {s : State} {r : Res Fetched} (h : selector s = some r) :
    r.within (Selected (begin s)) (SelectFault (begin s)) := by
  unfold selector at h
  cases hp : s.pend with
  | some p =>
    rw [hp] at h
    refine fetchByContext_within ?_
    rw [awaited_begin, begin_of_some hp, awaited, hp]
    exact h
  | none =>
    rw [hp] at h
    refine fetchByState_within ?_ h
    rw [awaited_begin, awaited, hp]

/-- A selecting word leaves the reader behind it, and nothing else. -/
theorem Selected.readerOnly {v t : State} {w : Fetched} (h : Selected v w t) : readerOnly v t := by
  cases h with
  | badMagic _ _ _ _ hd => exact readerOnly_of_drawsOnly hd
  | container _ _ _ _ _ hd _ => exact readerOnly_of_drawsOnly hd
  | rawPayload => exact readerOnly_refl v
  | frame _ _ _ hd => exact readerOnly_of_drawsOnly hd
  | stream _ _ _ hr => exact hr.1
  | block _ _ _ hr => exact hr.1
  | mainSym _ _ _ _ hr => exact hr.1
  | rawByte _ _ _ hr _ _ _ => exact hr
  | alignedLens => exact readerOnly_refl v
  | pretree => exact readerOnly_refl v
  | preSym _ _ _ _ _ _ hr => exact hr.1
  | lenFooter => exact readerOnly_refl v
  | alignedSym => exact readerOnly_refl v
  | uncompBody => exact readerOnly_refl v
  | oddPad => exact readerOnly_refl v

/-- Everything the turn of an agent can find, with the engine's words read. -/
theorem turnedOf_cases {s : State} {r : Option (Res Fetched)}
    (h : ∀ x, r = some x → x.within (Selected (begin s)) (SelectFault (begin s))) :
    (∃ w t, turnedOf s r = .element w t ∧ Selected (begin s) w t)
      ∨ (∃ e d, turnedOf s r = .raised e d s ∧ SelectFault (begin s) e)
      ∨ (∃ k, turnedOf s r = .refused k ∧ r = some (.refuse k)) ∨ (turnedOf s r = .stuck .noRule ∧ r = none) := by
  cases r with
  | none => exact .inr (.inr (.inr ⟨rfl, rfl⟩))
  | some x =>
    have hx := h x rfl
    cases x with
    | ok w t => exact .inl ⟨w, t, rfl, hx⟩
    | raise e d => exact .inr (.inl ⟨e, d, rfl, hx⟩)
    | refuse k => exact .inr (.inr (.inl ⟨k, rfl, rfl⟩))

/-- Everything a step can do, its words read: no turn, a reset, the end of a session, a host access, an element of the
engine, or a fault of its word. -/
inductive StepCase (s : State) : State → Prop where
  | quiet (hp : s.pend = none) (hb : s.busy = false) : StepCase s (atTurn s)
  | reset (hp : s.pend = none) (hs : s.sched ≠ []) : StepCase s (hardReset (atTurn s))
  | complete (hp : s.pend = none) (hb : s.busy = true) (hds : s.sess.ds = .frameHdr)
      (hall : s.sess.produced = s.sess.decSize) : StepCase s (endDone (atTurn s))
  | host {t : State} (hp : s.pend = none) (a : Access) (h : exec (decodeHost a) (atTurn s) = .next t)
      (hs : s.sched ≠ []) : StepCase s t
  | element {u t : State} {w : Fetched} {i : Instr} (hgo : s.pend = none → s.busy = true)
      (hw : Selected (begin (atTurn s)) w u) (hi : instrOf u.cfg w = some i) (h : exec i u = .next t) : StepCase s t
  | raised {t : State} {e : SessionError} (hgo : s.pend = none → s.busy = true) (he : SelectFault (begin (atTurn s)) e)
      (h : faulted e (atTurn s) t) : StepCase s t

theorem stepCase {s t : State} (h : step s = .next t) : StepCase s t := by
  obtain ⟨-, hcases⟩ := step_cases h
  have hfetch := fetchCase s
  generalize fetch s = f at hfetch hcases
  cases hfetch with
  | quiet hp hb =>
    obtain hf | ⟨_, hf, -⟩ | ⟨_, hf, -⟩ | ⟨_, _, _, hf, -⟩ | ⟨_, _, _, hf, -⟩ := hcases <;> cases hf
    exact .quiet hp hb
  | reset hp hs =>
    obtain hf | ⟨_, hf, rfl⟩ | ⟨_, hf, -⟩ | ⟨_, _, _, hf, -⟩ | ⟨_, _, _, hf, -⟩ := hcases <;> cases hf
    exact .reset hp hs
  | complete hp hb hds hall =>
    obtain hf | ⟨_, hf, -⟩ | ⟨_, hf, rfl⟩ | ⟨_, _, _, hf, -⟩ | ⟨_, _, _, hf, -⟩ := hcases <;> cases hf
    exact .complete hp hb hds hall
  | host hp a hs =>
    obtain hf | ⟨_, hf, -⟩ | ⟨_, hf, -⟩ | ⟨_, _, _, hf, hi, hexec⟩ | ⟨_, _, _, hf, -⟩ := hcases <;> cases hf
    obtain ⟨hdec, -⟩ := instrOf_eq_some.mp hi
    cases hdec
    exact .host hp a hexec hs
  | engine hgo =>
    have hgo (hp : s.pend = none) : s.busy = true := (hgo hp).1
    obtain ⟨w, u, hw, hsel⟩ | ⟨e, d, he, hsel⟩ | ⟨k, hk, -⟩ | ⟨hk, -⟩ :=
      turnedOf_cases (s := atTurn s) fun x hx => selector_within hx
    · rw [hw] at hcases
      obtain hf | ⟨_, hf, -⟩ | ⟨_, hf, -⟩ | ⟨_, _, _, hf, hi, hexec⟩ | ⟨_, _, _, hf, -⟩ := hcases <;> cases hf
      exact .element hgo hsel hi hexec
    · rw [he] at hcases
      obtain hf | ⟨_, hf, -⟩ | ⟨_, hf, -⟩ | ⟨_, _, _, hf, -⟩ | ⟨_, _, _, hf, rfl⟩ := hcases <;> cases hf
      exact .raised hgo hsel (takeFault_faulted e d (atTurn s))
    · rw [hk] at hcases
      obtain hf | ⟨_, hf, -⟩ | ⟨_, hf, -⟩ | ⟨_, _, _, hf, -⟩ | ⟨_, _, _, hf, -⟩ := hcases <;> cases hf
    · rw [hk] at hcases
      obtain hf | ⟨_, hf, -⟩ | ⟨_, hf, -⟩ | ⟨_, _, _, hf, -⟩ | ⟨_, _, _, hf, -⟩ := hcases <;> cases hf

end Sys2Proof.Machine
end

section
/-! SUPPORT. The step and its fetch: the statements about whose turn it is, which word selects the element, and the container
step (30_encoding.md R81, 10_state.md R39, 40_container.md R85). -/

namespace Sys2Proof.Machine

/-- Settles O3: the words of the tables, each decoded. -/
theorem sampleWords : Obligations.SampleWords := by
  unfold Obligations.SampleWords
  decide

/-! ## The state behind a fetch -/

/-- A fetched word leaves the state of the turn, with the reader behind it and the step opened where the engine moves. -/
theorem fetch_element_frame {s t : State} {w : Fetched} (h : fetch s = .element w t) :
    readerOnly (begin (atTurn s)) t ∨ (s.pend = none ∧ t = atTurn s) := by
  have hcase := fetchCase s
  generalize fetch s = f at h hcase
  cases hcase with
  | quiet => cases h
  | reset => cases h
  | complete => cases h
  | host hp a => cases h; exact .inr ⟨hp, rfl⟩
  | engine hgo =>
    obtain ⟨w, u, hw, hsel⟩ | ⟨e, d, he, -⟩ | ⟨k, hk, -⟩ | ⟨hk, -⟩ :=
      turnedOf_cases (s := atTurn s) fun x hx => selector_within hx
    · rw [hw] at h
      cases h
      exact .inl hsel.readerOnly
    · rw [he] at h; cases h
    · rw [hk] at h; cases h
    · rw [hk] at h; cases h

/-- Settles O4, from the frame of the fetch. -/
theorem stepRunsDecoded : Obligations.StepRunsDecoded := by
  unfold Obligations.StepRunsDecoded
  intro s s' w i hv hf hdec hwf
  refine ⟨step_of_element hv hf (instrOf_eq_some.mpr ⟨hdec, hwf⟩), ?_⟩
  obtain hread | ⟨hp, rfl⟩ := fetch_element_frame hf
  · cases hp : s.pend with
    | some p =>
      rw [atTurn_of_pend hp, begin_of_some hp] at hread
      have hpend : s'.pend = some p := (readerOnly_pend hread).trans hp
      refine ⟨?_, readerOnly_seen hread hp, fun _ => ⟨hpend, by rw [hread]⟩⟩
      conv_lhs => rw [hread, hp, ← hpend]
      rw [hread]
    | none =>
      obtain ⟨c, q, d, rfl⟩ := readerOnly_begin_exists hread
      exact ⟨rfl, rfl, fun h => absurd rfl h⟩
  · exact ⟨rfl, rfl, fun h => absurd hp h⟩

/-! ## The engine alone on the schedule -/

section
variable {s : State} (hb : s.busy = true) (hp : s.pend = none) (hs : s.sched = [])
include hb hp hs

/-- A step that the engine begins: the state selects the word. -/
theorem fetch_of_state (hgo : ¬(s.sess.ds = .frameHdr ∧ s.sess.produced = s.sess.decSize)) :
    fetch s = turnedOf s (fetchByState (begin s)) := by
  rw [fetch_of_nil hp hs, engineTurn, if_neg (by rw [hb]; decide), if_neg hgo]

/-- A word that is read is fetched. -/
theorem fetch_of_state_ok {w : Fetched} {t : State} {d : DState} (hds : s.sess.ds = d)
    (hgo : ¬(d = .frameHdr ∧ s.sess.produced = s.sess.decSize)) (h : fetchByState (begin s) = some (.ok w t)) :
    fetch s = .element w t := by
  rw [fetch_of_state hb hp hs (by rwa [hds]), h]
  rfl

/-- A word whose reading raises a fault is the entry to FAILED. -/
theorem step_of_state_raise {e : SessionError} {n : Nat} {d : DState} (hv : s.cfg.valid = true) (hds : s.sess.ds = d)
    (hgo : ¬(d = .frameHdr ∧ s.sess.produced = s.sess.decSize)) (h : fetchByState (begin s) = some (.raise e n)) :
    ∃ t, step s = .next t ∧ faulted e s t :=
  ⟨_, step_of_raised hv (by rw [fetch_of_state hb hp hs (by rwa [hds]), h]; rfl), takeFault_faulted e n s⟩

end

section
variable {s : State} {d : DState} (hds : s.sess.ds = d)
include hds

theorem fetchByState_stream (hd : d = .streamHdr) :
    fetchByState (begin s) = some ((readBits 1 (begin s)).bind fun v t => .ok (.stream (BitVec.ofNat 1 v)) t) := by
  simp only [fetchByState, begin_sess, hds, hd]

theorem fetchByState_block (hd : d = .blockHdr) :
    fetchByState (begin s) = some ((readBits 3 (begin s)).bind fun v t => .ok (.block (BitVec.ofNat 3 v)) t) := by
  simp only [fetchByState, begin_sess, hds, hd]

theorem fetchByState_main (hd : d = .decVerbatim ∨ d = .decAligned) :
    fetchByState (begin s)
      = some ((decodeSymbol .main (begin s)).bind fun m t => .ok (.mainSym (BitVec.ofNat 10 m)) t) := by
  obtain hd | hd := hd
  · simp only [fetchByState, begin_sess, hds, hd, fetchMain]
  · simp only [fetchByState, begin_sess, hds, hd, fetchMain]

theorem fetchByState_rawByte (hd : d = .decUncomp) :
    fetchByState (begin s) = some ((readByte (begin s)).bind fun b t => .ok (.rawByte b) t) := by
  simp only [fetchByState, begin_sess, hds, hd]

theorem fetchByState_frame (hd : d = .frameHdr) : fetchByState (begin s) = some (fetchFrame (begin s)) := by
  simp only [fetchByState, begin_sess, hds, hd]

theorem fetchByState_container (hd : d = .container) : fetchByState (begin s) = some (fetchContainer (begin s)) := by
  simp only [fetchByState, begin_sess, hds, hd]

end

/-- A symbol that raises from a tree with a code ran into the end of the frame (42_huffman.md R109). -/
theorem decodeSymbol_raise_eq {tr : Tree} {s : State} {e : SessionError} {d : Nat} (hk : kraft (tr.lens s) ≠ 0)
    (h : decodeSymbol tr s = .raise e d) : e = .bitsExhausted := by
  cases hf : findSymbol (tr.lens s) (bitsVal ((ensure 16 s).sess.rdQ.take 16)) with
  | none =>
    rw [decodeSymbol, if_neg hk, peek, if_neg (Nat.not_lt.mpr (ensure_le_length 16 s)), Res.ok_bind] at h
    simp only [hf] at h
    cases h
  | some p =>
    obtain ⟨sym, l⟩ := p
    rw [decodeSymbol_of_findSymbol hk hf] at h
    split at h <;> cases h
    rfl

theorem decodeSymbol_of_empty {tr : Tree} {s : State} (hk : kraft (tr.lens s) = 0) :
    decodeSymbol tr s = .raise tr.empty s.draws := if_pos hk

/-- The pretree symbol that a step awaits, in the step that fetches it. -/
theorem step_of_preSym_raise {s : State} {b : Session} {h : BlockHdr} {p : Pass} {x n : Nat} {e : SessionError}
    (hv : s.cfg.valid = true) (hp : s.pend = some ⟨b, .preSym h p x⟩) (hr : decodeSymbol .pre s = .raise e n) :
    ∃ t, step s = .next t ∧ faulted e s t := by
  refine ⟨_, step_of_raised hv ?_, takeFault_faulted e n s⟩
  rw [fetch_of_pend hp]
  show turnedOf s (some ((decodeSymbol .pre s).bind _)) = _
  rw [hr]
  rfl

/-- Settles O5: at a step's start by the engine state, inside a step by the element awaited, and the faults of the reads. -/
theorem fetchSelects : Obligations.FetchSelects := by
  unfold Obligations.FetchSelects
  refine ⟨fun s hb hp hs => ⟨fun hds => ?_, fun hds hne hlen => ?_, fun hds v t hr => ?_, fun hds v t hr => ?_,
      fun hds m t hr => ?_, fun hds b t hr => ?_⟩, fun s b => ⟨fun h hp => ?_, fun h p hp => ?_,
      fun h p x hp z t hz => ?_, fun slot hp => ?_, fun slot len hp => ?_, fun h hp => ?_, fun hp => ?_⟩,
    fun s hv hb hp hs => ?_, fun s b h p x hv hp => ⟨fun hk => ?_, fun hk e d hr => ?_⟩⟩
  · exact fetch_of_state_ok hb hp hs hds (fun h => nomatch h.1) (by simp only [fetchByState, begin_sess, hds])
  · refine fetch_of_state_ok hb hp hs hds (fun h => hne h.2) ?_
    rw [fetchByState_frame hds rfl, fetchFrame, begin_sess, begin_inLen, if_neg (Nat.not_lt.mpr hlen)]
  · exact fetch_of_state_ok hb hp hs hds (fun h => nomatch h.1) (by rw [fetchByState_stream hds rfl, hr]; rfl)
  · exact fetch_of_state_ok hb hp hs hds (fun h => nomatch h.1) (by rw [fetchByState_block hds rfl, hr]; rfl)
  · refine fetch_of_state_ok hb hp hs rfl (fun h => ?_) (by rw [fetchByState_main rfl hds, hr]; rfl)
    obtain hds | hds := hds <;> exact nomatch hds.symm.trans h.1
  · exact fetch_of_state_ok hb hp hs hds (fun h => nomatch h.1) (by rw [fetchByState_rawByte hds rfl, hr]; rfl)
  · rw [fetch_of_pend hp]; rfl
  · rw [fetch_of_pend hp]; rfl
  · rw [fetch_of_pend hp]
    show turnedOf s (some ((decodeSymbol .pre s).bind _)) = _
    rw [hz]
    rfl
  · rw [fetch_of_pend hp]; rfl
  · rw [fetch_of_pend hp]; rfl
  · rw [fetch_of_pend hp]; rfl
  · rw [fetch_of_pend hp]; rfl
  · intro fails
    refine ⟨fun hds hne hlen => ?_, fun hds e d hr => ?_, fun hds e d hr => ?_,
      fun hds => ⟨fun hk => ?_, fun hk e d hr => ?_⟩, fun hds hlen => ?_⟩
    · refine step_of_state_raise (n := (begin s).draws) hb hp hs hv hds (fun h => hne h.2) ?_
      rw [fetchByState_frame hds rfl, fetchFrame, begin_sess, begin_inLen, if_pos hlen]
    · refine step_of_state_raise (n := d) hb hp hs hv hds (fun h => nomatch h.1) ?_
      rw [fetchByState_stream hds rfl, hr, readBits_raise_eq hr]
      rfl
    · refine step_of_state_raise (n := d) hb hp hs hv hds (fun h => nomatch h.1) ?_
      rw [fetchByState_block hds rfl, hr, readBits_raise_eq hr]
      rfl
    · refine step_of_state_raise (n := (begin s).draws) hb hp hs hv rfl (fun h => ?_) ?_
      · obtain hds | hds := hds <;> exact nomatch hds.symm.trans h.1
      · rw [fetchByState_main rfl hds, decodeSymbol_of_empty (by rw [Tree.lens, begin_sess]; exact hk)]
        rfl
    · refine step_of_state_raise (n := d) hb hp hs hv rfl (fun h => ?_) ?_
      · obtain hds | hds := hds <;> exact nomatch hds.symm.trans h.1
      · rw [fetchByState_main rfl hds, hr, decodeSymbol_raise_eq (by rw [Tree.lens, begin_sess]; exact hk) hr]
        rfl
    · refine step_of_state_raise (n := (begin s).draws) hb hp hs hv hds (fun h => nomatch h.1) ?_
      rw [fetchByState_rawByte hds rfl, readByte, begin_sess, if_pos hlen]
      rfl
  · exact step_of_preSym_raise hv hp (decodeSymbol_of_empty hk)
  · exact step_of_preSym_raise hv hp (decodeSymbol_raise_eq (tr := .pre) hk hr ▸ hr)

/-! ## Turns in which no element runs -/

/-- Settles O30: the engine's turn of a machine that is not BUSY, and the end of a session. -/
theorem turnsWithoutElement : Obligations.TurnsWithoutElement := by
  unfold Obligations.TurnsWithoutElement
  refine ⟨fun s hv hp hb hs => ?_, fun s rest hv hp hb hs => ?_, fun s hv hp hb hs hds hall => ?_⟩
  · exact step_of_quiet hv (by rw [fetch_of_nil hp hs, engineTurn, if_pos hb])
  · exact step_of_quiet hv (by rw [fetch_of_engine hp hs, engineTurn, if_pos hb])
  · have hc : engineTurn s = .complete s := by
      rw [engineTurn, if_neg (by rw [hb]; decide), if_pos ⟨hds, hall⟩]
    rw [step_of_complete hv (by rw [fetch_of_nil hp hs, hc]), endDone, ← hp]

/-! ## The container step -/

/-- The container word is read in the state with the step opened, byte by byte as it stands. -/
theorem fetchContainer_begin (s : State) :
    fetchContainer (begin s) =
      let b0 := s.readIn 0
      let b1 := b0.2.readIn 1
      let b2 := b1.2.readIn 2
      let b3 := b2.2.readIn 3
      let b4 := b3.2.readIn 4
      let b5 := b4.2.readIn 5
      let magic : BitVec 24 := b0.1 ++ b1.1 ++ b2.1
      if s.inLen < 3 then .raise .headerShort s.draws
      else if magic ≠ s.cfg.magicWord then .ok (.container (magic ++ 0#24)) (begin b2.2)
      else if s.inLen < 10 then .raise .headerShort b2.2.draws
      else .ok (.container (magic ++ b3.1 ++ b4.1 ++ b5.1)) (begin b5.2) := by
  simp only [fetchContainer, readIn_begin, begin_inLen, begin_cfg, begin_draws]

/-- Settles O34: the checks of the container word, in their order. -/
theorem containerStep : Obligations.ContainerStep := by
  unfold Obligations.ContainerStep
  intro s hv hb hp hs hds b0 b1 b2 b3 b4 b5 magic
  have hfetch := (fetchByState_container hds rfl).trans (congrArg some (fetchContainer_begin s))
  have hgo : ¬(DState.container = .frameHdr ∧ s.sess.produced = s.sess.decSize) := fun h => nomatch h.1
  have h2 : drawsOnly s b2.2 :=
    drawsOnly_trans (readIn_drawsOnly s 0) (drawsOnly_trans (readIn_drawsOnly _ 1) (readIn_drawsOnly _ 2))
  have h5 : drawsOnly s b5.2 := drawsOnly_trans h2
    (drawsOnly_trans (readIn_drawsOnly _ 3) (drawsOnly_trans (readIn_drawsOnly _ 4) (readIn_drawsOnly _ 5)))
  have hcfg : (begin b5.2).cfg = s.cfg := by rw [begin_cfg, drawsOnly_cfg h5]
  have row {i : Instr} (hmagic : magic = s.cfg.magicWord) (hlen : 10 ≤ s.inLen)
      (hi : decodeContainer s.cfg (s.cfg.magicWord ++ b3.1 ++ b4.1 ++ b5.1) = i) (hwf : i.wellFormed s.cfg = true) :
      step s = exec i (begin b5.2) := by
    refine step_of_element (w := .container (magic ++ b3.1 ++ b4.1 ++ b5.1)) hv ?_ ?_
    · refine fetch_of_state_ok hb hp hs hds hgo (hfetch.trans (congrArg some ?_))
      exact (if_neg (by omega)).trans ((if_neg (not_not.mpr hmagic)).trans (if_neg (by omega)))
    · rw [hcfg, hmagic, instrOf_eq_some]
      exact ⟨congrArg Except.ok hi, hwf⟩
  refine ⟨fun hlen => ?_, fun hlen hne => ?_, fun hlen hmagic hlen' => ?_, fun hmagic hlen hflag => ?_,
    fun hmagic hlen hflag => ?_⟩
  · exact step_of_state_raise (n := s.draws) hb hp hs hv hds hgo (hfetch.trans (congrArg some (if_pos hlen)))
  · have hword : fetch s = .element (.container (magic ++ 0#24)) (begin b2.2) :=
      fetch_of_state_ok hb hp hs hds hgo
        (hfetch.trans (congrArg some ((if_neg (Nat.not_lt.mpr hlen)).trans (if_pos hne))))
    have hcfg2 : (begin b2.2).cfg = s.cfg := by rw [begin_cfg, drawsOnly_cfg h2]
    obtain ⟨t, ht, hf⟩ := exec_contBadmagic magic (begin b2.2)
    refine ⟨t, ?_, ?_⟩
    · rw [step_of_element hv hword (i := .contBadmagic magic), ht]
      rw [hcfg2, instrOf_eq_some]
      exact ⟨congrArg Except.ok (decodeContainer_of_ne hne), bne_iff_ne.mpr hne⟩
    · obtain ⟨d, hd⟩ := drawsOnly_iff.mp h2
      rw [hd] at hf
      unfold faulted at hf ⊢
      rw [hf, seen_begin, begin_eq_record]
      rfl
  · exact step_of_state_raise (n := b2.2.draws) hb hp hs hv hds hgo (hfetch.trans (congrArg some
      ((if_neg (Nat.not_lt.mpr hlen)).trans ((if_neg (not_not.mpr hmagic)).trans (if_pos hlen')))))
  · refine row hmagic hlen ?_ ?_
    · rw [decodeContainer_of_magic, if_neg (by rw [hflag]; decide)]
    · exact (congrArg (!·) hflag : _)
  · refine row hmagic hlen ?_ ?_
    · rw [decodeContainer_of_magic, if_pos hflag]
    · exact hflag

end Sys2Proof.Machine
end

section
/-! SUPPORT. The two agents: what an element of the engine leaves unchanged, derived from its effect, and everything a host
access can do, said once (20_memory.md R49, R61, 10_state.md R40, 46_host_interface.md R152 to R166). -/

namespace Sys2Proof.Machine

/-! ## What an element leaves -/

/-- `t` differs from `s` at most in the session, the step in progress, `OUT` and the count of draws: all that an element can
write inside its step. -/
def elementFrame (s t : State) : Prop := t = { s with sess := t.sess, pend := t.pend, out := t.out, draws := t.draws }

/-- `t` differs from `s` at most in what some element writes: also the header CSRs, and BUSY, DONE and OUT_LEN at the end of
a session. -/
def engineFrame (s t : State) : Prop :=
  t = { s with
    sess := t.sess, pend := t.pend, out := t.out, draws := t.draws
    hdrPlatform := t.hdrPlatform, hdrVersion := t.hdrVersion, hdrFlags := t.hdrFlags
    hdrFileSize := t.hdrFileSize, hdrDecSize := t.hdrDecSize, compressed := t.compressed
    e8FileSize := t.e8FileSize, e8Present := t.e8Present
    outLen := t.outLen, busy := t.busy, done := t.done }

theorem elementFrame_trans {s t u : State} (h : elementFrame s t) (h' : elementFrame t u) : elementFrame s u := by
  unfold elementFrame at *
  rw [h', h]

theorem elementFrame_of_readerOnly {s t : State} (h : readerOnly s t) : elementFrame s t := by
  unfold readerOnly at h
  unfold elementFrame
  rw [h]

theorem elementFrame_begin (s : State) : elementFrame s (begin s) := by
  unfold elementFrame
  rw [begin_eq_record]

theorem engineFrame_of_elementFrame {s t : State} (h : elementFrame s t) : engineFrame s t := by
  unfold elementFrame at h
  unfold engineFrame
  rw [h]

theorem engineFrame_trans {s t u : State} (h : engineFrame s t) (h' : engineFrame t u) : engineFrame s u := by
  unfold engineFrame at *
  rw [h', h]

theorem engineFrame_hostSideKept {s t : State} (h : engineFrame s t) : hostSideKept s t := by
  unfold engineFrame at h
  rw [h]
  exact ⟨rfl, rfl, rfl, rfl, rfl, rfl, rfl, rfl⟩

theorem faulted_hostSideKept {e : SessionError} {s t : State} (h : faulted e s t) : hostSideKept s t := by
  unfold faulted at h
  rw [h]
  exact ⟨rfl, rfl, rfl, rfl, rfl, rfl, rfl, rfl⟩

theorem hostSideKept_trans {s t u : State} (h : hostSideKept s t) (h' : hostSideKept t u) : hostSideKept s u := by
  obtain ⟨a1, a2, a3, a4, a5, a6, a7, a8⟩ := h
  obtain ⟨b1, b2, b3, b4, b5, b6, b7, b8⟩ := h'
  exact ⟨b1.trans a1, b2.trans a2, b3.trans a3, b4.trans a4, b5.trans a5, b6.trans a6, b7.trans a7, b8.trans a8⟩

/-! ## The ends of elements -/

/-- The end of an element's step commits (44_lzx_symbols.md R130). -/
theorem afterElement_frame (s : State) : elementFrame s (afterElement s) ∧ (afterElement s).pend = none := by
  rw [afterElement_eq]
  exact ⟨rfl, rfl⟩

/-- The accounting in its three cases: the pad byte is awaited, an Uncompressed block's end restarts the reader, or the step
ends as it stands (44_lzx_symbols.md R130, R131). -/
theorem account_cases (k : Nat) (s : State) :
    let u : State := { s with sess := { s.sess with
      blockRem := s.sess.blockRem - k, frameRem := s.sess.frameRem - k } }
    (s.sess.blockRem - k = 0 ∧ s.sess.blockType = 3 ∧ s.cfg.oddPad = true ∧ s.sess.blockLen % 2 = 1
        ∧ account k s = await .oddPad u)
      ∨ (s.sess.blockRem - k = 0 ∧ s.sess.blockType = 3 ∧ ¬ (s.cfg.oddPad = true ∧ s.sess.blockLen % 2 = 1)
        ∧ account k s = afterElement (reinit u))
      ∨ ((s.sess.blockRem - k ≠ 0 ∨ s.sess.blockType ≠ 3) ∧ account k s = afterElement u) := by
  intro u
  by_cases hrem : s.sess.blockRem - k = 0
  · by_cases hb : s.sess.blockType = 3
    · by_cases hpad : s.cfg.oddPad = true ∧ s.sess.blockLen % 2 = 1
      · exact .inl ⟨hrem, hb, hpad.1, hpad.2, account_pad hrem hb hpad.1 hpad.2⟩
      · exact .inr (.inl ⟨hrem, hb, hpad, account_restart hrem hb hpad⟩)
    · refine .inr (.inr ⟨.inr hb, ?_⟩)
      rw [account_of_ne k s hb, afterElement_eq]
      rfl
  · exact .inr (.inr ⟨.inl hrem, account_inside hrem⟩)

/-- The tail of a block header commits (43_lzx_blocks.md R115). -/
theorem headerTail_frame (b : BlockHdr) (d : DState) (s : State) :
    elementFrame s (headerTail b d s) ∧ (headerTail b d s).pend = none := by
  unfold headerTail
  dsimp only
  split
  · rw [blockEnd]
    split
    · exact ⟨rfl, rfl⟩
    · exact ⟨rfl, rfl⟩
  · exact ⟨rfl, rfl⟩

/-- How a pass goes on (43_lzx_blocks.md R122, R123): its next symbol, the next pass, or the end of the header. -/
theorem passContinue_cases {b : BlockHdr} {p : Pass} {x : Nat} {s t : State} (h : passContinue b p x s = .ok () t) :
    (x < p.last s.cfg ∧ t = await (.preSym b p x) s)
      ∨ (p = .mainLow ∧ t = await (.pretree b .mainHigh) s)
      ∨ (p = .mainHigh ∧ builtLens s.sess.mainLen = true ∧ t = await (.pretree b .lengths) s)
      ∨ (p = .lengths ∧ builtLens s.sess.lenLen = true ∧ t = headerTail b (treeDecState b) s) := by
  unfold passContinue at h
  split at h
  · next hx =>
    cases h
    exact .inl ⟨hx, rfl⟩
  · cases p with
    | mainLow =>
      cases h
      exact .inr (.inl ⟨rfl, rfl⟩)
    | mainHigh =>
      have hb := build_within .main s
      simp only [passEnd] at h
      cases hbuild : build .main s with
      | ok a u =>
        rw [hbuild] at h hb
        cases h
        obtain ⟨rfl, hb⟩ := hb
        exact .inr (.inr (.inl ⟨rfl, hb, rfl⟩))
      | raise e d => rw [hbuild] at h; cases h
      | refuse r => rw [hbuild] at h; cases h
    | lengths =>
      have hb := build_within .len s
      simp only [passEnd] at h
      cases hbuild : build .len s with
      | ok a u =>
        rw [hbuild] at h hb
        cases h
        obtain ⟨rfl, hb⟩ := hb
        exact .inr (.inr (.inr ⟨rfl, hb, rfl⟩))
      | raise e d => rw [hbuild] at h; cases h
      | refuse r => rw [hbuild] at h; cases h

/-- What a piece that ends or goes on a step keeps: the frame, and the committed session where the step goes on. -/
def stepFrame (s t : State) : Prop := elementFrame s t ∧ (t.pend = none ∨ ∃ c, t.pend = some ⟨s.seen, c⟩)

theorem stepFrame_of_none {s t : State} (h : elementFrame s t) (hp : t.pend = none) : stepFrame s t := ⟨h, .inl hp⟩

theorem stepFrame_await (c : Ctx) (s : State) : stepFrame s (await c s) := ⟨rfl, .inr ⟨c, rfl⟩⟩

theorem stepFrame_congr {s u t : State} (hu : elementFrame s u) (hseen : u.seen = s.seen) (h : stepFrame u t) :
    stepFrame s t := by
  obtain ⟨hf, hp⟩ := h
  exact ⟨elementFrame_trans hu hf, hseen ▸ hp⟩

theorem passContinue_stepFrame {b : BlockHdr} {p : Pass} {x : Nat} {s t : State} (h : passContinue b p x s = .ok () t) :
    stepFrame s t := by
  obtain ⟨-, rfl⟩ | ⟨-, rfl⟩ | ⟨-, -, rfl⟩ | ⟨-, -, rfl⟩ := passContinue_cases h
  · exact stepFrame_await _ s
  · exact stepFrame_await _ s
  · exact stepFrame_await _ s
  · exact stepFrame_of_none (headerTail_frame b _ s).1 (headerTail_frame b _ s).2

theorem setArr_frame (p : Pass) (arr : List Nat) (s : State) :
    elementFrame s (p.setArr arr s) ∧ (p.setArr arr s).pend = s.pend := by
  cases p <;> exact ⟨rfl, rfl⟩

theorem account_stepFrame {k : Nat} {s : State} {p : Pending} (hp : s.pend = some p) : stepFrame s (account k s) := by
  have hseen {u : State} (hu : u.pend = s.pend) : u.seen = s.seen := seen_congr_some hp hu
  have hafter {u : State} (hu : elementFrame s u) : stepFrame s (afterElement u) :=
    stepFrame_of_none (elementFrame_trans hu (afterElement_frame u).1) (afterElement_frame u).2
  obtain ⟨-, -, -, -, heq⟩ | ⟨-, -, -, heq⟩ | ⟨-, heq⟩ := account_cases k s
  · rw [heq]
    exact stepFrame_congr (u := { s with sess := { s.sess with
      blockRem := s.sess.blockRem - k, frameRem := s.sess.frameRem - k } }) rfl (hseen rfl) (stepFrame_await _ _)
  · rw [heq]
    refine hafter ?_
    rfl
  · rw [heq]
    refine hafter ?_
    rfl

/-- The frame of every effect, and of those that leave the step open the narrower one. -/
theorem Effect.frame_of {v t : State} {i : Instr} {p : Pending} (hp : v.pend = some p) (h : Effect v i t) :
    engineFrame v t ∧ (t.pend ≠ none → stepFrame v t) := by
  have narrow {u : State} (h : stepFrame v u) : engineFrame v u ∧ (u.pend ≠ none → stepFrame v u) :=
    ⟨engineFrame_of_elementFrame h.1, fun _ => h⟩
  have hseen {u : State} (hu : u.pend = v.pend) : u.seen = v.seen := seen_congr_some hp hu
  cases h with
  | contRaw => exact ⟨rfl, fun h => absurd rfl h⟩
  | contCompressed => exact ⟨rfl, fun h => absurd rfl h⟩
  | rawCopy => exact ⟨rfl, fun h => absurd rfl h⟩
  | frame a hl bs fs _ _ _ _ _ hstart =>
    obtain ⟨heq, -⟩ := hstart
    refine narrow (stepFrame_of_none ?_ (by rw [heq]))
    unfold elementFrame
    rw [heq]
  | e8 => exact ⟨rfl, fun h => absurd rfl h⟩
  | blkVerbatim => exact narrow (stepFrame_await _ v)
  | blkAligned => exact narrow (stepFrame_await _ v)
  | blkUncomp => exact narrow (stepFrame_await _ v)
  | alignedLens b ls => exact narrow (stepFrame_congr (u := v.setSess { v.sess with alLen := ls }) rfl (hseen rfl)
      (stepFrame_await _ _))
  | pretree b q ls _ _ _ hpass =>
    exact narrow (stepFrame_congr (u := v.setSess { v.sess with preLen := ls }) rfl (hseen rfl)
      (passContinue_stepFrame hpass))
  | run b q x k n _ _ hpass =>
    obtain ⟨hf, hpend⟩ := setArr_frame q (fillEntries (q.arr v) x k n) v
    exact narrow (stepFrame_congr hf (hseen hpend) (passContinue_stepFrame hpass))
  | uncompAlignR b r0 r1 r2 =>
    exact narrow (stepFrame_of_none (elementFrame_trans (t := v.setR r0 r1 r2) rfl (headerTail_frame b _ _).1)
      (headerTail_frame b _ _).2)
  | emitted b => exact narrow (stepFrame_congr (u := emit b v) rfl (hseen rfl) (account_stepFrame hp))
  | lenFooter => exact narrow (stepFrame_await _ v)
  | alignedFooter => exact narrow (stepFrame_await _ v)
  | matched len off r =>
    have hcopy : elementFrame v (copyMatch len off v) ∧ (copyMatch len off v).pend = v.pend := by
      unfold elementFrame
      rw [copyMatch_frame]
      exact ⟨rfl, rfl⟩
    exact narrow (stepFrame_congr (u := (copyMatch len off v).setR r.1 r.2.1 r.2.2)
      (elementFrame_trans hcopy.1 rfl) (hseen hcopy.2) (account_stepFrame (p := p) (hcopy.2.trans hp)))
  | oddPad =>
    exact narrow (stepFrame_of_none (elementFrame_trans (t := reinit _) rfl (afterElement_frame _).1)
      (afterElement_frame _).2)

/-- What the engine's elements leave unchanged: what is not theirs, and inside a step also what the host sees. -/
theorem moved_frame {i : Instr} {s t : State} (h : moved i s t) :
    engineFrame s t ∧ (t.pend ≠ none → elementFrame s t ∧ t.seen = s.seen) := by
  obtain ⟨v, ⟨hread, -⟩, he⟩ := h
  have hp : v.pend = some ⟨s.seen, awaited s⟩ := (readerOnly_pend hread).trans (begin_pend s)
  obtain ⟨hf, hopen⟩ := he.frame_of hp
  have hv : elementFrame s v := elementFrame_trans (elementFrame_begin s) (elementFrame_of_readerOnly hread)
  refine ⟨engineFrame_trans (engineFrame_of_elementFrame hv) hf, fun hne => ?_⟩
  obtain ⟨hf', hpend⟩ := hopen hne
  obtain hnone | ⟨c, hc⟩ := hpend
  · exact absurd hnone hne
  · exact ⟨elementFrame_trans hv hf', by rw [seen_of_some hc, seen_of_some hp]⟩

/-- Settles O27, by the frame of the element's effect or of the entry to FAILED. -/
theorem engineKeepsHostSide : Obligations.EngineKeepsHostSide := by
  unfold Obligations.EngineKeepsHostSide
  intro i s t hhost h
  obtain hmoved | ⟨e, -, hf⟩ := exec_moved hhost h
  · exact engineFrame_hostSideKept (moved_frame hmoved).1
  · exact faulted_hostSideKept hf

/-- The registers are read from the committed session and the CSRs, which no element changes inside its step. -/
theorem csrValue_congr {s t : State} (h : elementFrame s t) (hseen : t.seen = s.seen) (o : Nat) :
    csrValue t o = csrValue s o ∧ irq t = irq s := by
  unfold elementFrame at h
  generalize t.sess = x at h
  generalize t.pend = y at h
  generalize t.out = z at h
  generalize t.draws = d at h
  subst h
  have hvalue : outLenValue { s with sess := x, pend := y, out := z, draws := d } = outLenValue s := by
    simp only [outLenValue, hseen]
  constructor
  · simp only [csrValue, ctrlWord, statusWord, errWord, hdrInfoWord, configWord, blockInfoWord, frameRemainingWord,
      magicCfgWord, hvalue, hseen]
  · rfl

/-- Settles O28, by the narrower frame of an element that leaves its step open. -/
theorem stepSeenWhole : Obligations.StepSeenWhole := by
  unfold Obligations.StepSeenWhole
  intro i s t hhost h hopen
  obtain hmoved | ⟨e, -, hf⟩ := exec_moved hhost h
  · obtain ⟨hframe, hseen⟩ := (moved_frame hmoved).2 hopen
    exact ⟨fun o => (csrValue_congr hframe hseen o).1, (csrValue_congr hframe hseen 0).2, hseen⟩
  · unfold faulted at hf
    rw [hf] at hopen
    exact absurd rfl hopen

/-! ## The words of the engine select no host access -/

theorem isHost_ofSlot {slot : Nat} {lh : BitVec 3} {i : Instr} (h : Instr.ofSlot slot lh = some i) :
    isHost i = false := by
  unfold Instr.ofSlot at h
  split at h <;> cases h <;> rfl

theorem isHost_decodeMain {m : BitVec 10} {i : Instr} (h : decodeMain m = .ok i) : isHost i = false := by
  unfold decodeMain at h
  split at h
  · cases h
    rfl
  · split at h
    · next j hj =>
      cases h
      exact isHost_ofSlot hj
    · cases h

theorem isHost_decodePre {z : BitVec 5} {i : Instr} (h : decodePre z = .ok i) : isHost i = false := by
  unfold decodePre at h
  split at h
  · cases h; rfl
  · split at h
    · cases h; rfl
    · split at h
      · cases h; rfl
      · split at h <;> cases h
        rfl

theorem Selected.not_host {v t : State} {w : Fetched} {i : Instr} {p : Params} (h : Selected v w t)
    (hi : instrOf p w = some i) : isHost i = false := by
  obtain ⟨hdec, -⟩ := instrOf_eq_some.mp hi
  cases h with
  | badMagic | container =>
    cases hdec
    unfold decodeContainer
    split
    · rfl
    · split <;> rfl
  | frame =>
    simp only [decode] at hdec
    split at hdec <;> cases hdec <;> rfl
  | stream =>
    simp only [decode] at hdec
    split at hdec <;> cases hdec <;> rfl
  | block =>
    cases hdec
    unfold decodeBlock
    split
    · rfl
    · split
      · rfl
      · split <;> rfl
  | mainSym => exact isHost_decodeMain hdec
  | preSym => exact isHost_decodePre hdec
  | lenFooter =>
    simp only [decode] at hdec
    cases hdec
    rfl
  | rawPayload | rawByte | alignedLens | pretree | alignedSym | uncompBody | oddPad => cases hdec; rfl

/-! ## Host accesses -/

/-- The state after a host access other than START and SOFT_RESET: the controls, `IN`, IN_LEN and the bus side may change,
a sticky bit only to 0, the mark only to 1, and while BUSY neither `IN` nor IN_LEN. -/
structure HostOnly (s t : State) : Prop where
  frame : t = { s with
    inp := t.inp, irqEn := t.irqEn, done := t.done, failed := t.failed, cmdIgnored := t.cmdIgnored
    inLen := t.inLen, resp := t.resp, busErr := t.busErr, draws := t.draws }
  done : t.done = true → s.done = true
  failed : t.failed = true → s.failed = true
  busErr : s.busErr = true → t.busErr = true
  busy : s.busy = true → t.inp = s.inp ∧ t.inLen = s.inLen
  wf : s.inp.wf = true → t.inp.wf = true
  below : s.inp.below s.cfg.inCap = true → t.inp.below s.cfg.inCap = true
  inLen : s.inLen ≤ s.cfg.inCap → t.inLen ≤ s.cfg.inCap

/-- An access that writes neither `IN`, IN_LEN nor a sticky bit. -/
theorem HostOnly.of_kept {s t : State} (frame : t = { s with
      irqEn := t.irqEn, cmdIgnored := t.cmdIgnored, resp := t.resp, busErr := t.busErr, draws := t.draws })
    (busErr : s.busErr = true → t.busErr = true) : HostOnly s t where
  frame := by rw [frame]
  done h := by rw [frame] at h; exact h
  failed h := by rw [frame] at h; exact h
  busErr := busErr
  busy _ := by rw [frame]; exact ⟨rfl, rfl⟩
  wf h := by rw [frame]; exact h
  below h := by rw [frame]; exact h
  inLen h := by rw [frame]; exact h

theorem hostOnly_busErrorResp (s : State) : HostOnly s (busErrorResp s) := .of_kept rfl fun _ => rfl

theorem hostOnly_drawsOnly {s u : State} (h : drawsOnly s u) (r : Resp) : HostOnly s (u.respond r) := by
  obtain ⟨d, rfl⟩ := drawsOnly_iff.mp h
  exact .of_kept rfl id

theorem hostOnly_writeStatus (v : Word) (s : State) (r : Resp) : HostOnly s ((writeStatus v s).respond r) where
  frame := rfl
  done h := (Bool.and_eq_true_iff.mp h).1
  failed h := (Bool.and_eq_true_iff.mp h).1
  busErr := id
  busy _ := ⟨rfl, rfl⟩
  wf := id
  below := id
  inLen := id

theorem hostOnly_writeInLen (v : Word) (s : State) (r : Resp) : HostOnly s ((writeInLen v s).respond r) := by
  cases hb : s.busy with
  | true =>
    rw [writeInLen_of_busy hb]
    exact .of_kept rfl id
  | false =>
    rw [writeInLen_of_idle hb]
    exact { frame := rfl, done := id, failed := id, busErr := id, wf := id, below := id
            busy := fun h => absurd (hb.symm.trans h) (by decide)
            inLen := fun _ => Nat.min_le_right _ _ }

theorem apertureOk_iff {s : State} {a cap : Nat} {size : Size} : apertureOk s a size cap = true ↔
    s.busy = false ∧ (size = .b8 ∨ size = .b32 ∧ a % 4 = 0) ∧ a + size.bytes ≤ cap := by
  simp only [apertureOk, Bool.and_eq_true, Bool.not_eq_true', decide_eq_true_eq, and_assoc]
  refine and_congr_right fun _ => and_congr_left fun _ => ?_
  cases size <;> simp [apertureWidthOk]

theorem hostOnly_inWrite {a : BitVec 20} {size : Size} {s : State} (h : apertureOk s a.toNat size s.cfg.inCap = true)
    (v : Word) (r : Resp) : HostOnly s ({ s with inp := writeBytes size.bytes a.toNat v s.inp }.respond r) := by
  obtain ⟨hb, -, hcap⟩ := apertureOk_iff.mp h
  exact { frame := rfl, done := id, failed := id, busErr := id, inLen := id
          busy := fun h => absurd (hb.symm.trans h) (by decide)
          wf := wf_writeBytes _ _ v
          below := fun h => below_writeBytes _ _ v h hcap }

/-- What a host access makes of `s`: SOFT_RESET, an accepted START, or one of the others. -/
inductive HostCase (s : State) : State → Prop where
  | softReset (r : Resp) : HostCase s ((softResetState s).respond r)
  | start (irqEn : Bool) (hb : s.busy = false) (r : Resp) :
      HostCase s ((startSession { s with irqEn := irqEn }).respond r)
  | other {t : State} (h : HostOnly s t) : HostCase s t

theorem hostCase_writeCtrl (v : Word) (s : State) (r : Resp) : HostCase s ((writeCtrl v s).respond r) := by
  cases hreset : v.getLsbD 1 with
  | true =>
    rw [writeCtrl_of_softReset hreset]
    exact .softReset r
  | false =>
    cases hstart : v.getLsbD 0 with
    | true =>
      rw [writeCtrl_of_start hreset hstart, startBit]
      split
      · exact .other (.of_kept rfl id)
      · next hb => exact .start _ (by simpa using hb) r
    | false =>
      rw [writeCtrl_of_irqEn hreset hstart]
      exact .other (.of_kept rfl id)

/-- An access under a guard without which it is a bus error. -/
theorem hostOnly_guarded {c : Prop} [Decidable c] {s u t : State} (hu : c → HostOnly s u)
    (h : (if c then .next u else .next (busErrorResp s) : Host.Outcome State Fault Refusal) = .next t) :
    HostOnly s t := by
  split at h
  · next hc =>
    cases h
    exact hu hc
  · cases h
    exact hostOnly_busErrorResp s

/-- The accesses that write no CTRL. -/
theorem hostOnly_exec {i : Instr} {s t : State} (hhost : isHost i = true) (hcsr : ∀ o v, i ≠ .csrWrite o v)
    (hstart : ∀ v, i ≠ .start v) (hreset : ∀ v, i ≠ .softReset v) (hirq : ∀ v, i ≠ .irqEn v) (h : exec i s = .next t) :
    HostOnly s t := by
  cases i with
  | csrRead o => exact hostOnly_guarded (u := s.respond (.data (csrValue s o.toNat))) (fun _ => .of_kept rfl id) h
  | csrWrite o v => exact absurd rfl (hcsr o v)
  | start v => exact absurd rfl (hstart v)
  | softReset v => exact absurd rfl (hreset v)
  | irqEn v => exact absurd rfl (hirq v)
  | w1c v =>
    cases h
    exact hostOnly_writeStatus v s .ok
  | inLen v =>
    cases h
    exact hostOnly_writeInLen v s .ok
  | inWrite a size v => exact hostOnly_guarded (fun hok => hostOnly_inWrite hok v .ok) h
  | inRead a size =>
    exact hostOnly_guarded (fun _ => hostOnly_drawsOnly (readInBytes_drawsOnly size.bytes a.toNat s) _) h
  | outRead a size =>
    exact hostOnly_guarded (fun _ => hostOnly_drawsOnly (readOutBytes_drawsOnly size.bytes a.toNat s) _) h
  | outWrite | busError =>
    cases h
    exact hostOnly_busErrorResp s
  | _ => cases hhost

theorem hostCase_csrWrite {o : BitVec 12} {v : Word} {s t : State} (h : execCsrWrite o v s = .next t) :
    HostCase s t := by
  unfold execCsrWrite at h
  split at h
  · cases h
    split
    · exact hostCase_writeCtrl v s .ok
    · split
      · exact .other (hostOnly_writeStatus v s .ok)
      · split
        · exact .other (hostOnly_writeInLen v s .ok)
        · exact .other (.of_kept rfl id)
  · cases h
    exact .other (hostOnly_busErrorResp s)

/-- Everything a host access can do. -/
theorem hostCase {i : Instr} {s t : State} (hhost : isHost i = true) (h : exec i s = .next t) : HostCase s t := by
  cases i with
  | csrWrite o v => exact hostCase_csrWrite h
  | start v | softReset v | irqEn v =>
    cases h
    exact hostCase_writeCtrl v s .ok
  | _ =>
    exact .other (hostOnly_exec hhost (fun _ _ h => nomatch h) (fun _ h => nomatch h) (fun _ h => nomatch h)
      (fun _ h => nomatch h) h)

/-- Settles O26: what a host access may write, but for START and SOFT_RESET, is not the engine's. -/
theorem hostKeepsSession : Obligations.HostKeepsSession := by
  unfold Obligations.HostKeepsSession
  intro i s t hhost hwf hstart hreset h
  have kept {u : State} (h : HostOnly s u) : engineSideKept s u := by
    rw [h.frame]
    exact ⟨rfl, rfl, rfl, rfl, rfl, rfl, rfl, rfl, rfl, rfl, rfl, rfl, rfl, rfl, rfl, rfl, rfl, rfl⟩
  by_cases hcsr : ∃ o v, i = .csrWrite o v
  · obtain ⟨o, v, rfl⟩ := hcsr
    have hwf : (o.toNat % 4 == 0 && !actingCsr o) = true := hwf
    simp only [actingCsr, Bool.and_eq_true, beq_iff_eq, Bool.not_eq_true', Bool.or_eq_false_iff, beq_eq_false_iff_ne,
      ne_eq, ← BitVec.toNat_inj] at hwf
    obtain ⟨halign, ⟨hctrl, hstatus⟩, hinLen⟩ := hwf
    rw [exec_csrWrite_inert halign hctrl hstatus hinLen] at h
    cases h
    exact kept (.of_kept rfl id)
  · by_cases hirq : ∃ v, i = .irqEn v
    · obtain ⟨v, rfl⟩ := hirq
      have hwf : (!v.getLsbD 0 && !v.getLsbD 1) = true := hwf
      simp only [Bool.and_eq_true, Bool.not_eq_true'] at hwf
      rw [exec_irqEn, writeCtrl_of_irqEn hwf.2 hwf.1] at h
      cases h
      exact kept (.of_kept rfl id)
    · exact kept (hostOnly_exec hhost (fun o v hi => hcsr ⟨o, v, hi⟩) hstart hreset (fun v hi => hirq ⟨v, hi⟩) h)

theorem isHost_decodeCsrWrite (o : BitVec 12) (v : Word) : isHost (decodeCsrWrite o v) = true := by
  unfold decodeCsrWrite decodeCtrl
  split
  · split
    · rfl
    · split <;> rfl
  · split
    · rfl
    · split <;> rfl

theorem isHost_decodeHost (a : Access) : isHost (decodeHost a) = true := by
  cases a with
  | read addr size =>
    simp only [decodeHost]
    split
    · split <;> rfl
    · split <;> rfl
    · split <;> rfl
    · rfl
  | write addr size v =>
    simp only [decodeHost]
    split
    · split
      · exact isHost_decodeCsrWrite _ v
      · rfl
    · split <;> rfl
    · rfl
    · rfl

theorem decodeHost_wellFormed (p : Params) (a : Access) : (decodeHost a).wellFormed p = true := by
  cases a with
  | read addr size => exact (encode_decodeHost_read p addr size).1
  | write addr size v => exact (encode_decodeHost_write p addr size v).1

/-! ## Whole steps -/

/-- The state behind a selecting word keeps the host's side. -/
theorem Selected.hostSideKept {s u : State} {w : Fetched} (h : Selected (begin s) w u) :
    Machine.hostSideKept s u :=
  engineFrame_hostSideKept (engineFrame_of_elementFrame
    (elementFrame_trans (elementFrame_begin s) (elementFrame_of_readerOnly h.readerOnly)))

/-- Settles O29: inside a step the engine alone moves; between steps the schedule's access is run. -/
theorem hostTurns : Obligations.HostTurns := by
  unfold Obligations.HostTurns
  refine ⟨fun s t hopen h => ?_, fun s a rest hv hp hs => ?_⟩
  · obtain ⟨p, hp⟩ := Option.ne_none_iff_exists'.mp hopen
    cases stepCase h with
    | quiet hnone | reset hnone | complete hnone | host hnone => exact absurd hnone hopen
    | element hgo hw hi hexec =>
      rw [atTurn_of_pend hp] at hw
      exact hostSideKept_trans hw.hostSideKept (engineKeepsHostSide _ _ _ (hw.not_host hi) hexec)
    | raised hgo he hf =>
      rw [atTurn_of_pend hp] at hf
      exact faulted_hostSideKept hf
  · exact step_of_element hv (fetch_of_host hp hs) (instrOf_eq_some.mpr ⟨rfl, decodeHost_wellFormed _ a⟩)

/-- A fault behind reads of the step is the fault of the step. -/
theorem faulted_of_readerOnly_begin {e : SessionError} {s u t : State} (hread : readerOnly (begin s) u)
    (h : faulted e u t) : faulted e s t := by
  have hseen : u.seen = s.seen := (readerOnly_seen hread (begin_pend s)).trans (seen_begin s)
  unfold faulted at h ⊢
  rw [hseen] at h
  rw [h, readerOnly_begin_eq hread]

theorem hostCase_failed {s t : State} (h : HostCase s t) (hf : t.failed = true) : s.failed = true := by
  cases h with
  | softReset r => cases hf
  | start irqEn hb r => cases hf
  | other h => exact h.failed hf

/-- Settles O32: only a fault raises FAILED, and it is taken from the session as committed before the step. -/
theorem faultEntry : Obligations.FaultEntry := by
  unfold Obligations.FaultEntry
  intro s t h hno hyes
  show ∃ e, faulted e (atTurn s) t
  have hturn : (atTurn s).failed = false := hno
  cases stepCase h with
  | quiet => exact absurd (hno.symm.trans hyes) (by decide)
  | reset => cases hyes
  | complete => exact absurd (hno.symm.trans hyes) (by decide)
  | host hp a hexec =>
    have := hostCase_failed (hostCase (isHost_decodeHost a) hexec) hyes
    exact absurd (hturn.symm.trans this) (by decide)
  | element hgo hw hi hexec =>
    obtain hmoved | ⟨e, -, hf⟩ := exec_moved (hw.not_host hi) hexec
    · have hframe := engineFrame_trans (engineFrame_of_elementFrame
        (elementFrame_trans (elementFrame_begin _) (elementFrame_of_readerOnly hw.readerOnly))) (moved_frame hmoved).1
      unfold engineFrame at hframe
      rw [hframe] at hyes
      exact absurd (hturn.symm.trans hyes) (by decide)
    · exact ⟨e, faulted_of_readerOnly_begin hw.readerOnly hf⟩
  | raised hgo he hf => exact ⟨_, hf⟩

theorem hostCase_busErr {s t : State} (h : HostCase s t) (hb : s.busErr = true) : t.busErr = true := by
  cases h with
  | softReset r => exact hb
  | start irqEn _ r => exact hb
  | other h => exact h.busErr hb

/-- Settles O25: by the decoder, by the row, and by what each kind of step does to the mark. -/
theorem busErrorResult : Obligations.BusErrorResult := by
  unfold Obligations.BusErrorResult
  refine ⟨fun p acc h => congrArg Except.ok (decodeHost_of_not_placed h), fun acc s => rfl, fun s t hb h => ?_⟩
  cases stepCase h with
  | quiet => exact hb
  | reset => exact hb
  | complete => exact hb
  | host hp a hexec => exact hostCase_busErr (hostCase (isHost_decodeHost a) hexec) hb
  | element hgo hw hi hexec =>
    obtain ⟨-, -, -, -, -, -, -, hu⟩ := hw.hostSideKept
    obtain ⟨-, -, -, -, -, -, -, ht⟩ := engineKeepsHostSide _ _ _ (hw.not_host hi) hexec
    exact ht.trans (hu.trans hb)
  | raised hgo he hf =>
    obtain ⟨-, -, -, -, -, -, -, ht⟩ := faulted_hostSideKept hf
    exact ht.trans hb

end Sys2Proof.Machine
end

section
/-! SUPPORT. The registers and the apertures: what a reset leaves, the layout of every register word, START and SOFT_RESET, and
the bytes of the aperture accesses (10_state.md R20 to R36, 46_host_interface.md R152 to R163). -/

namespace Sys2Proof.Machine

/-! ## Resets -/

theorem lensOk_replicate (n m : Nat) : lensOk n m (List.replicate n 0) = true := by
  rw [lensOk_iff]
  exact ⟨List.length_replicate, fun l hl => by rw [List.eq_of_mem_replicate hl]; exact Nat.zero_le m⟩

theorem windowSize_pos (p : Params) : 0 < p.windowSize := Nat.two_pow_pos _

/-- The sessions of reset and of START have the sizes and ranges of a session. -/
theorem sessionShape_reset (p : Params) : sessionShape p (Session.reset p) = true := by
  simp only [sessionShape, Session.reset, lensOk_replicate, Memory.wf, Memory.below, List.all_nil, windowSize_pos,
    Nat.zero_le, decide_true, Bool.and_true, List.length_nil]

theorem sessionShape_fresh (p : Params) : sessionShape p (freshSession p) = true := by
  simp only [sessionShape, freshSession, lensOk_replicate, Memory.wf, Memory.below, List.all_nil, windowSize_pos,
    Nat.zero_le, decide_true, Bool.and_true, List.length_nil]

theorem legal_resetOf {p : Params} (h : p.valid = true) : legal (State.resetOf p) = true := by
  have hshape : sessionShape p (Session.reset p) = true := sessionShape_reset p
  simp only [legal, memoriesOk, shapeOk, pendOk, statusOk, liveOk, State.resetOf, h, hshape, Memory.wf, Memory.below,
    List.all_nil, Nat.zero_le, decide_true, Bool.and_true, Bool.not_false, Bool.true_or, Option.isNone_none,
    Bool.and_false]

/-- Settles O6: after reset nothing is written and no step is in progress. -/
theorem resetLegal : Obligations.ResetLegal := by
  unfold Obligations.ResetLegal
  exact ⟨legal_resetOf (by decide), fun p => legal_resetOf⟩

/-- Settles O12, by the alignment of the offset. -/
theorem csrReadResult : Obligations.CsrReadResult := by
  unfold Obligations.CsrReadResult
  exact fun o s => ⟨fun h => exec_csrRead_aligned h s, fun h => if_neg h⟩

/-- Settles O15: the enable is written first, then START is accepted or refused. -/
theorem startResult : Obligations.StartResult := by
  unfold Obligations.StartResult
  refine fun v s hstart hreset => ⟨fun hidle => ?_, fun hbusy => ?_⟩
  · rw [exec_start, writeCtrl_of_start hreset hstart, startBit, if_neg (by exact ne_of_eq_of_ne hidle (by decide))]
    rfl
  · rw [exec_start, writeCtrl_of_start hreset hstart, startBit, if_pos (by exact hbusy)]
    rfl

/-- Settles O16: SOFT_RESET wins over the other bits. -/
theorem softResetResult : Obligations.SoftResetResult := by
  unfold Obligations.SoftResetResult
  intro v s hreset
  show Host.Outcome.next ((writeCtrl v s).respond .ok) = _
  rw [writeCtrl_of_softReset hreset]
  rfl

/-! ## The layout of the registers -/

/-- A field above another one. -/
theorem toNat_append_eq {m n : Nat} (x : BitVec m) (y : BitVec n) : (x ++ y).toNat = x.toNat * 2 ^ n + y.toNat := by
  rw [BitVec.toNat_append, ← Nat.shiftLeft_add_eq_or_of_lt y.isLt, Nat.shiftLeft_eq]

theorem toNat_bit (b : Bool) : (bit b).toNat = b.toNat := BitVec.toNat_ofBool b

theorem DState.code_lt (d : DState) : d.code < 16 := by
  cases d <;> decide

theorem ctrlWord_toNat (s : State) : (ctrlWord s).toNat = 4 * s.irqEn.toNat := by
  simp only [ctrlWord, toNat_append_eq, toNat_bit, BitVec.toNat_ofNat, Nat.zero_mod]
  omega

theorem statusWord_toNat (s : State) : (statusWord s).toNat =
    s.busy.toNat + 2 * s.done.toNat + 4 * s.failed.toNat + 8 * s.e8Present.toNat + 16 * s.compressed.toNat
      + 32 * s.cmdIgnored.toNat + 256 * s.seen.ds.code := by
  have := DState.code_lt s.seen.ds
  simp only [statusWord, toNat_append_eq, toNat_bit, BitVec.toNat_ofNat, Nat.zero_mod]
  omega

theorem errWord_toNat (s : State) : (errWord s).toNat = s.errCause.toNat + 256 * s.errDetail.toNat := by
  simp only [errWord, toNat_append_eq, BitVec.toNat_ofNat, Nat.zero_mod]
  omega

theorem hdrInfoWord_toNat (s : State) : (hdrInfoWord s).toNat =
    s.hdrPlatform.toNat + 256 * s.hdrVersion.toNat + 65536 * s.hdrFlags.toNat := by
  simp only [hdrInfoWord, toNat_append_eq, BitVec.toNat_ofNat, Nat.zero_mod]
  omega

theorem configWord_toNat (s : State) : (configWord s).toNat = s.cfg.windowBits % 2 ^ 5
    + 256 * (decide (s.cfg.slot2Mode = .rotate)).toNat + 512 * s.cfg.oddPad.toNat := by
  simp only [configWord, toNat_append_eq, toNat_bit, BitVec.toNat_ofNat, Nat.zero_mod]
  omega

theorem blockInfoWord_toNat (s : State) : (blockInfoWord s).toNat =
    s.seen.blockRem % 2 ^ 24 + 2 ^ 24 * s.seen.blockType.toNat + 2 ^ 27 * s.seen.headerRead.toNat := by
  simp only [blockInfoWord, toNat_append_eq, toNat_bit, BitVec.toNat_ofNat, Nat.zero_mod]
  omega

theorem frameRemainingWord_toNat (s : State) : (frameRemainingWord s).toNat = s.seen.frameRem % 2 ^ 17 := by
  simp only [frameRemainingWord, toNat_append_eq, BitVec.toNat_ofNat, Nat.zero_mod]
  omega

theorem magicCfgWord_toNat (s : State) : (magicCfgWord s).toNat =
    s.cfg.magic0.toNat + 256 * s.cfg.magic1.toNat + 65536 * s.cfg.magic2.toNat := by
  simp only [magicCfgWord, toNat_append_eq, BitVec.toNat_ofNat, Nat.zero_mod]
  omega

/-- Settles O13, register by register. -/
theorem csrLayout : Obligations.CsrLayout := by
  unfold Obligations.CsrLayout
  exact ⟨rfl, fun s => ⟨rfl, ctrlWord_toNat s, statusWord_toNat s, errWord_toNat s, BitVec.toNat_ofNat .., BitVec.toNat_ofNat ..,
    BitVec.toNat_ofNat .., hdrInfoWord_toNat s, rfl, rfl, rfl, rfl, rfl, rfl, BitVec.toNat_ofNat .., configWord_toNat s,
    BitVec.toNat_ofNat .., BitVec.toNat_ofNat .., blockInfoWord_toNat s, frameRemainingWord_toNat s, magicCfgWord_toNat s⟩⟩

/-- Settles O11: the registers one by one, and the step that takes the pulse. -/
theorem resetState : Obligations.ResetState := by
  unfold Obligations.ResetState
  refine ⟨fun p o ho => ?_, fun p => ⟨rfl, rfl, rfl, rfl, rfl, fun a => rfl, fun a => ?_⟩, fun s rest hv hp hs => ?_⟩
  · simp only [List.mem_cons, List.not_mem_nil, or_false, not_or] at ho
    obtain ⟨h0, h2c, h30, h34, h3c, h40, h44, h50⟩ := ho
    unfold csrValue
    rw [if_neg h0, if_neg h2c, if_neg h30, if_neg h34, if_neg h3c, if_neg h40, if_neg h44, if_neg h50]
    have word {x : Word} (hx : x.toNat = 0) : x = 0 := BitVec.eq_of_toNat_eq hx
    have zero {c : Prop} [Decidable c] {x y : Word} (hx : x = 0) (hy : y = 0) : (if c then x else y) = 0 := by
      rw [hx, hy, ite_self]
    exact zero (word (ctrlWord_toNat _)) (zero (word (statusWord_toNat _)) (zero (word (errWord_toNat _)) (zero rfl
      (zero rfl (zero rfl (zero (word (hdrInfoWord_toNat _)) (zero rfl (zero rfl (zero rfl (zero rfl
        (zero (word (blockInfoWord_toNat _)) (zero (word (frameRemainingWord_toNat _)) rfl))))))))))))
  · exact congrArg Prod.fst (if_neg (Nat.not_lt_zero a))
  · rw [step_of_reset hv (fetch_of_rst hp hs)]
    rfl

/-! ## Writes of `IN` -/

theorem apertureOk_iff_inAdmitted {s : State} {a : Nat} {size : Size} :
    apertureOk s a size s.cfg.inCap = true ↔ inAdmitted s a size := apertureOk_iff

theorem apertureOk_iff_outAdmitted {s : State} {a : Nat} {size : Size} :
    apertureOk s a size s.cfg.outCap = true ↔ outAdmitted s a size := apertureOk_iff

/-- Settles O20, by the bytes a host write stores. -/
theorem inWriteResult : Obligations.InWriteResult := by
  unfold Obligations.InWriteResult
  refine fun a size v s => ⟨fun h => ?_, fun h => exec_inWrite_refused (apertureOk_iff_inAdmitted.not.mpr h) v⟩
  refine ⟨{ s with inp := writeBytes size.bytes a.toNat v s.inp, resp := .ok }, ?_, rfl,
    get?_writeBytes size.bytes a.toNat v s.inp, wf_writeBytes size.bytes a.toNat v⟩
  exact if_pos (apertureOk_iff_inAdmitted.mpr h)

/-! ## Little-endian reads -/

/-- A byte below a word of higher bytes (20_memory.md R52): the word's bytes, and its range. -/
theorem pushByte (v : Word) (b : Byte) {n : Nat} (hn : n < 4) (hv : v.toNat < 256 ^ n) :
    ((v <<< 8) ||| b.setWidth 32).toNat < 256 ^ (n + 1)
      ∧ ((v <<< 8) ||| b.setWidth 32).extractLsb' (8 * 0) 8 = b
      ∧ ∀ k, k < n → ((v <<< 8) ||| b.setWidth 32).extractLsb' (8 * (k + 1)) 8 = v.extractLsb' (8 * k) 8 := by
  have hb := b.isLt
  have hlt : v.toNat * 2 ^ 8 < 2 ^ 32 := by
    have : 256 ^ n ≤ 256 ^ 3 := Nat.pow_le_pow_right (by decide) (by omega)
    omega
  have heq : ((v <<< 8) ||| b.setWidth 32).toNat = v.toNat * 2 ^ 8 + b.toNat := by
    rw [BitVec.toNat_or, BitVec.toNat_shiftLeft, BitVec.toNat_setWidth, Nat.shiftLeft_eq, Nat.mod_eq_of_lt hlt,
      Nat.mod_eq_of_lt (by omega), ← Nat.shiftLeft_eq, ← Nat.shiftLeft_add_eq_or_of_lt hb]
  refine ⟨?_, ?_, fun k hk => ?_⟩
  · have hpow : 256 ^ (n + 1) = 256 ^ n * 2 ^ 8 := pow_succ 256 n
    rw [heq, hpow]
    clear heq hlt
    calc v.toNat * 2 ^ 8 + b.toNat < (v.toNat + 1) * 2 ^ 8 := by omega
      _ ≤ _ := Nat.mul_le_mul_right _ hv
  · apply BitVec.eq_of_toNat_eq
    rw [BitVec.extractLsb'_toNat, heq, Nat.shiftRight_eq_div_pow]
    omega
  · apply BitVec.eq_of_toNat_eq
    rw [BitVec.extractLsb'_toNat, BitVec.extractLsb'_toNat, heq, show 8 * (k + 1) = 8 + 8 * k by omega,
      Nat.shiftRight_add]
    congr 2
    rw [Nat.shiftRight_eq_div_pow]
    omega

/-- A read of `IN`: the byte or a draw, which is counted (20_memory.md R49). -/
theorem readIn_eq (s : State) (a : Nat) :
    s.readIn a = ((s.inp.get? a).getD (Config.draw s.draws), { s with draws := s.draws + unwritten s.inp a 1 }) := by
  unfold State.readIn
  cases h : s.inp.get? a with
  | some b =>
    rw [readCell_some h]
    simp [unwritten, h]
  | none =>
    rw [readCell_none h]
    simp [unwritten, h, State.countDraw]

/-- The first cell counts apart from the others. -/
theorem unwritten_succ (m : Memory) (a k : Nat) : unwritten m a (k + 1) = unwritten m a 1 + unwritten m (a + 1) k := by
  simp only [unwritten, List.range_succ_eq_map, List.filter_cons, List.filter_map, List.range_zero, List.map_nil,
    List.filter_nil]
  have hcomp : ((fun i => (m.get? (a + i)).isNone) ∘ Nat.succ) = fun i => (m.get? (a + 1 + i)).isNone := by
    funext i
    rw [Function.comp_apply, Nat.succ_eq_add_one, Nat.add_comm i 1, Nat.add_assoc]
  rw [hcomp]
  split
  · rw [List.length_cons, List.length_map, List.length_singleton, Nat.add_comm]
  · rw [List.length_map, List.length_nil, Nat.zero_add]

/-- The datum of an `IN` read, byte by byte (46_host_interface.md R162). -/
theorem readInBytes_eq (n a : Nat) (s : State) (hn : n ≤ 4) :
    (readInBytes n a s).2 = { s with draws := s.draws + unwritten s.inp a n }
      ∧ (readInBytes n a s).1.toNat < 256 ^ n
      ∧ ∀ k, k < n → (readInBytes n a s).1.extractLsb' (8 * k) 8 =
          (s.inp.get? (a + k)).getD (Config.draw (s.draws + unwritten s.inp a k)) := by
  induction n generalizing a s with
  | zero => exact ⟨rfl, Nat.one_pos, fun k hk => absurd hk (Nat.not_lt_zero k)⟩
  | succ n ih =>
    simp only [readInBytes, readIn_eq]
    obtain ⟨hstate, hlt, hbytes⟩ := ih (a + 1) { s with draws := s.draws + unwritten s.inp a 1 } (by omega)
    obtain ⟨hlt', hlow, hhigh⟩ :=
      pushByte _ ((s.inp.get? a).getD (Config.draw s.draws)) (by omega : n < 4) hlt
    refine ⟨?_, hlt', fun k hk => ?_⟩
    · rw [hstate, unwritten_succ s.inp a n, Nat.add_assoc]
    · cases k with
      | zero => exact hlow
      | succ k =>
        rw [hhigh k (by omega), hbytes k (by omega), unwritten_succ s.inp a k, Nat.add_assoc s.draws]
        simp only [Nat.add_assoc, Nat.add_comm 1 k]

theorem Size.bytes_le (size : Size) : size.bytes ≤ 4 := by
  cases size <;> decide

/-- Settles O21, by the datum of the read. -/
theorem inReadResult : Obligations.InReadResult := by
  unfold Obligations.InReadResult
  refine fun a size s => ⟨fun h => ?_, fun h => exec_inRead_refused (apertureOk_iff_inAdmitted.not.mpr h)⟩
  obtain ⟨hstate, hlt, hbytes⟩ := readInBytes_eq size.bytes a.toNat s (Size.bytes_le size)
  refine ⟨(readInBytes size.bytes a.toNat s).1, ?_, hlt, hbytes⟩
  show execInRead a size s = _
  rw [execInRead, if_pos (apertureOk_iff_inAdmitted.mpr h)]
  dsimp only
  rw [hstate]
  rfl

/-! ## Reads of `OUT` -/

/-- The datum of an `OUT` read while not BUSY, byte by byte (46_host_interface.md R163). -/
theorem readOutBytes_eq (n a : Nat) (s : State) (hb : s.busy = false) (hn : n ≤ 4) :
    (readOutBytes n a s).1.toNat < 256 ^ n
      ∧ (∀ k, k < n → s.outLen ≤ a + k → (readOutBytes n a s).1.extractLsb' (8 * k) 8 = 0)
      ∧ (∀ k b, k < n → a + k < s.outLen → s.out.get? (a + k) = some b →
          (readOutBytes n a s).1.extractLsb' (8 * k) 8 = b)
      ∧ ((∀ k, k < n → a + k < s.outLen → (s.out.get? (a + k)).isSome = true) →
          (readOutBytes n a s).2.draws = s.draws) := by
  induction n generalizing a s with
  | zero =>
    exact ⟨Nat.one_pos, fun k hk => absurd hk (Nat.not_lt_zero k), fun k _ hk => absurd hk (Nat.not_lt_zero k), fun _ => rfl⟩
  | succ n ih =>
    have hvalue : outLenValue s = s.outLen := by rw [outLenValue, hb]; rfl
    have hzero (h : s.outLen ≤ a) : readOutByte a s = (0, s) := by
      rw [readOutByte, if_neg (by rw [hvalue]; omega)]
    have hbyte {b : Byte} (h : a < s.outLen) (hget : s.out.get? a = some b) : readOutByte a s = (b, s) := by
      rw [readOutByte, if_pos (by rw [hvalue]; exact h), readCell_some hget]
    obtain ⟨d, hd⟩ := drawsOnly_iff.mp (readOutByte_drawsOnly a s)
    obtain ⟨hlt, hbeyond, hbelow, hdraws⟩ := ih (a + 1) (readOutByte a s).2 (by rw [hd]; exact hb) (by omega)
    obtain ⟨hlt', hlow, hhigh⟩ := pushByte _ (readOutByte a s).1 (by omega : n < 4) hlt
    have hout : (readOutByte a s).2.out = s.out := by rw [hd]
    have hlen : (readOutByte a s).2.outLen = s.outLen := by rw [hd]
    rw [hlen] at hbeyond hbelow hdraws
    rw [hout] at hbelow hdraws
    have hnext (k : Nat) : a + 1 + k = a + (k + 1) := by omega
    simp only [readOutBytes]
    refine ⟨hlt', fun k hk hle => ?_, fun k b hk hlt hget => ?_, fun hall => ?_⟩
    · cases k with
      | zero => rw [hlow, hzero hle]
      | succ k => rw [hhigh k (by omega), hbeyond k (by omega) (by omega)]
    · cases k with
      | zero => rw [hlow, hbyte hlt hget]
      | succ k => rw [hhigh k (by omega), hbelow k b (by omega) (by omega) (by rw [hnext]; exact hget)]
    · rw [hdraws fun k hk hlt => by rw [hnext] at hlt ⊢; exact hall (k + 1) (by omega) hlt]
      obtain hlt | hge := Nat.lt_or_ge a s.outLen
      · obtain ⟨b, hget⟩ := Option.isSome_iff_exists.mp (hall 0 (by omega) hlt)
        rw [hbyte hlt hget]
      · rw [hzero hge]

/-- Settles O22, by the datum of the read. -/
theorem outReadResult : Obligations.OutReadResult := by
  unfold Obligations.OutReadResult
  refine fun a size s => ⟨fun h => ?_, fun h => exec_outRead_refused (apertureOk_iff_outAdmitted.not.mpr h)⟩
  obtain ⟨hlt, hbeyond, hbelow, hdraws⟩ := readOutBytes_eq size.bytes a.toNat s h.1 (Size.bytes_le size)
  obtain ⟨d, hd⟩ := drawsOnly_iff.mp (readOutBytes_drawsOnly size.bytes a.toNat s)
  refine ⟨(readOutBytes size.bytes a.toNat s).1, { s with resp := .data (readOutBytes size.bytes a.toNat s).1, draws := d },
    ?_, rfl, hlt, hbeyond, hbelow, fun hall => ?_⟩
  · show execOutRead a size s = _
    rw [execOutRead, if_pos (apertureOk_iff_outAdmitted.mpr h)]
    dsimp only
    rw [hd]
    rfl
  · have := hdraws hall
    rwa [hd] at this

end Sys2Proof.Machine
end

section
/-! SUPPORT. The invariant of the machine as facts of a state whose step is open: what the fetch leaves, the rows that can run in
it, and the two ways an element ends in a legal state, committed or awaiting (10_state.md R39, 30_encoding.md R81). -/

namespace Sys2Proof.Machine

/-! ## The predicates of legality as propositions -/

theorem sessionShape_iff {p : Params} {t : Session} : sessionShape p t = true ↔
    lensOk p.mainElements 16 t.mainLen = true ∧ lensOk Config.lengthSymbols 16 t.lenLen = true
      ∧ lensOk Config.alignedSymbols 7 t.alLen = true ∧ lensOk Config.pretreeSymbols 15 t.preLen = true
      ∧ t.win.wf = true ∧ t.win.below p.windowSize = true ∧ t.wpos < p.windowSize ∧ t.written ≤ p.windowSize
      ∧ t.rdQ.length ≤ 31 := by
  simp only [sessionShape, Bool.and_eq_true, decide_eq_true_eq, and_assoc]

theorem blockOk_iff {t : Session} : blockOk t = true ↔ t.blockRem ≠ 0 →
    (t.blockType = 1 ∨ t.blockType = 2 ∨ t.blockType = 3)
      ∧ (t.blockType ≠ 3 → builtLens t.mainLen = true ∧ builtLens t.lenLen = true)
      ∧ (t.blockType = 2 → builtLens t.alLen = true) := by
  simp only [blockOk, Bool.or_eq_true, Bool.and_eq_true, beq_iff_eq, bne_iff_ne, ne_eq, or_assoc, and_assoc]
  constructor
  · rintro (h | ⟨h1, h2, h3⟩) hne
    · exact absurd h hne
    · exact ⟨h1, h2.resolve_left, fun h => h3.resolve_left (not_not.mpr h)⟩
  · intro h
    by_cases h0 : t.blockRem = 0
    · exact .inl h0
    · obtain ⟨h1, h2, h3⟩ := h h0
      exact .inr ⟨h1, or_iff_not_imp_left.mpr h2, or_iff_not_imp_left.mpr fun h => h3 (not_not.mp h)⟩

theorem owedOk_iff {s : State} {t : Session} : owedOk s t = true ↔
    t.produced + t.frameRem ≤ t.decSize ∧ t.decSize ≤ s.cfg.outCap ∧ t.frameBase + t.frameLen ≤ s.inLen := by
  simp only [owedOk, Bool.and_eq_true, decide_eq_true_eq, and_assoc]

theorem memoriesOk_iff {s : State} : memoriesOk s = true ↔
    s.inp.wf = true ∧ s.inp.below s.cfg.inCap = true ∧ s.out.wf = true ∧ s.out.below s.cfg.outCap = true
      ∧ s.inLen ≤ s.cfg.inCap := by
  simp only [memoriesOk, Bool.and_eq_true, decide_eq_true_eq, and_assoc]

theorem statusOk_iff {s : State} : statusOk s = true ↔
    ¬(s.done = true ∧ s.failed = true) ∧ (s.busy = true → s.done = false ∧ s.failed = false)
      ∧ (s.pend ≠ none → s.busy = true) := by
  cases hp : s.pend <;> cases hb : s.busy <;> cases hd : s.done <;> cases hf : s.failed <;> simp [statusOk, hp, hb, hd, hf]

/-- The live session and the one the host sees, whether a step is in progress or not. -/
theorem shapeOk_pendOk_iff {s : State} : (shapeOk s = true ∧ pendOk s = true) ↔
    sessionShape s.cfg s.sess = true ∧ sessionShape s.cfg s.seen = true ∧ s.seen.ds = s.sess.ds
      ∧ s.seen.regs = s.sess.regs := by
  cases hp : s.pend with
  | none => simp [shapeOk, pendOk, State.seen, hp]
  | some p => simp [shapeOk, pendOk, State.seen, hp, and_assoc]

theorem legal_iff {s : State} : legal s = true ↔
    s.cfg.valid = true ∧ memoriesOk s = true
      ∧ (sessionShape s.cfg s.sess = true ∧ sessionShape s.cfg s.seen = true ∧ s.seen.ds = s.sess.ds
        ∧ s.seen.regs = s.sess.regs)
      ∧ statusOk s = true ∧ liveOk s = true := by
  rw [← shapeOk_pendOk_iff]
  simp only [legal, Bool.and_eq_true, and_assoc]

/-! ## States with the step open -/

/-- What an element of the engine finds: the machine BUSY, and the live and the committed session as the invariant says. -/
structure Opened (s : State) : Prop where
  valid : s.cfg.valid = true
  memories : memoriesOk s = true
  live : sessionShape s.cfg s.sess = true
  base : sessionShape s.cfg s.seen = true
  ds : s.seen.ds = s.sess.ds
  regs : s.seen.regs = s.sess.regs
  busy : s.busy = true
  done : s.done = false
  failed : s.failed = false
  block : blockOk s.sess = true
  owed : owedOk s s.sess = true
  ctx : awaited s = .started ∧ stateOk s.sess = true ∨ ctxOk s (awaited s) s.sess = true

/-- A legal state opens where the engine moves. -/
theorem opened_of_legal {s : State} (h : legal s = true) (hgo : s.pend = none → s.busy = true) :
    Opened (begin (atTurn s)) := by
  obtain ⟨hv, hm, ⟨hlive, hbase, hds, hregs⟩, hst, hok⟩ := legal_iff.mp h
  obtain ⟨-, hdf, hpb⟩ := statusOk_iff.mp hst
  have hbusy : s.busy = true := by
    by_cases hp : s.pend = none
    · exact hgo hp
    · exact hpb hp
  obtain ⟨hdone, hfailed⟩ := hdf hbusy
  simp only [liveOk, hbusy, Bool.not_true, Bool.false_or, Bool.and_eq_true] at hok
  obtain ⟨⟨hblock, howed⟩, hctx⟩ := hok
  have hctx : awaited s = .started ∧ stateOk s.sess = true ∨ ctxOk s (awaited s) s.sess = true := by
    cases hp : s.pend with
    | none => rw [hp] at hctx; exact .inl ⟨by rw [awaited, hp], hctx⟩
    | some p => rw [hp] at hctx; exact .inr (by rw [awaited, hp]; exact hctx)
  rw [begin_eq_record]
  exact ⟨hv, hm, hlive, hbase, hds, hregs, hbusy, hdone, hfailed, hblock, howed, hctx⟩

theorem sessionShape_readerOnly {s t : State} (h : readerOnly s t) (hq : t.sess.rdQ.length ≤ 31)
    (hs : sessionShape s.cfg s.sess = true) : sessionShape s.cfg t.sess = true := by
  obtain ⟨h1, h2, h3, h4, h5, h6, h7, h8, -⟩ := sessionShape_iff.mp hs
  rw [readerOnly_sess h]
  exact sessionShape_iff.mpr ⟨h1, h2, h3, h4, h5, h6, h7, h8, hq⟩

/-- The reads of an element leave the state open. -/
theorem Opened.of_readerOnly {s t : State} (ho : Opened s) (h : readerOnly s t) (hq : t.sess.rdQ.length ≤ 31)
    {p : Pending} (hp : s.pend = some p) : Opened t := by
  have hshape := sessionShape_readerOnly h hq ho.live
  have hseen := readerOnly_seen h hp
  have haw := readerOnly_awaited h
  have hmem := ho.memories
  obtain ⟨valid, -, -, base, ds, regs, busy, done, failed, block, owed, ctx⟩ := ho
  rw [← hseen] at base ds regs
  rw [← haw] at ctx
  unfold readerOnly at h
  generalize t.sess.rdC = c at h
  generalize t.sess.rdQ = q at h
  generalize t.draws = d at h
  subst h
  exact ⟨valid, hmem, hshape, base, ds, regs, busy, done, failed, block, owed, ctx⟩

theorem Opened.rdQ {s : State} (ho : Opened s) : s.sess.rdQ.length ≤ 31 := by
  obtain ⟨-, -, -, -, -, -, -, -, h⟩ := sessionShape_iff.mp ho.live
  exact h

theorem Opened.of_readOn {n : Nat} {s t : State} (ho : Opened s) (h : readOn n s t) {p : Pending}
    (hp : s.pend = some p) : Opened t := by
  obtain ⟨hread, -, hq, -⟩ := h
  have := ho.rdQ
  exact ho.of_readerOnly hread (by omega) hp

/-- The state behind a selecting word is open still. -/
theorem Opened.of_selected {s u : State} {w : Fetched} (ho : Opened (begin s)) (h : Selected (begin s) w u) :
    Opened u := by
  have hq : u.sess.rdQ.length ≤ 31 := by
    have h0 := ho.rdQ
    have on {n : Nat} (hr : readOn n (begin s) u) : u.sess.rdQ.length ≤ 31 := by
      obtain ⟨-, -, hq, -⟩ := hr
      omega
    have draws (hd : drawsOnly (begin s) u) : u.sess.rdQ.length ≤ 31 := by rwa [drawsOnly_sess hd]
    cases h with
    | badMagic _ _ _ _ hd => exact draws hd
    | container _ _ _ _ _ hd => exact draws hd
    | frame _ _ _ hd => exact draws hd
    | stream _ _ _ hr => exact on hr
    | block _ _ _ hr => exact on hr
    | mainSym _ _ _ _ hr => exact on hr
    | rawByte _ _ _ _ _ hq _ => rwa [hq]
    | preSym _ _ _ _ _ _ hr => exact on hr
    | rawPayload | alignedLens | pretree | lenFooter | alignedSym | uncompBody | oddPad => exact h0
  exact ho.of_readerOnly h.readerOnly hq (begin_pend s)

/-! ## The rows of an engine state -/

/-- The engine state and the element awaited in which a row of the engine runs (30_encoding.md R81). -/
def rowAt (i : Instr) (d : DState) (c : Ctx) : Prop :=
  match i with
  | .contRaw _ _ _ => d = .container ∧ c = .started
  | .contCompressed _ _ _ => d = .container ∧ c = .started
  | .contBadmagic _ => d = .container ∧ c = .started
  | .rawCopy => d = .rawCopy ∧ c = .started
  | .frameExt => d = .frameHdr ∧ c = .started
  | .frameStd _ => d = .frameHdr ∧ c = .started
  | .e8Off => d = .streamHdr ∧ c = .started
  | .e8On => d = .streamHdr ∧ c = .started
  | .blkVerbatim => d = .blockHdr ∧ c = .started
  | .blkAligned => d = .blockHdr ∧ c = .started
  | .blkUncomp => d = .blockHdr ∧ c = .started
  | .blkInvalid _ => d = .blockHdr ∧ c = .started
  | .alignedLens => ∃ h, c = .alignedLens h
  | .pretree => ∃ h p, c = .pretree h p
  | .preDelta _ => ∃ h p x, c = .preSym h p x
  | .preZeroShort => ∃ h p x, c = .preSym h p x
  | .preZeroLong => ∃ h p x, c = .preSym h p x
  | .preRepeat => ∃ h p x, c = .preSym h p x
  | .lenFooter => ∃ slot, c = .lenFooter slot
  | .alignedSym => ∃ slot len, c = .alignedSym slot len
  | .uncompAlignR => ∃ h, c = .uncompAlignR h
  | .rawByte _ => d = .decUncomp ∧ c = .started
  | .oddPad => c = .oddPad
  | _ => (d = .decVerbatim ∨ d = .decAligned) ∧ c = .started

theorem rowAt_ofSlot {slot : Nat} {lh : BitVec 3} {i : Instr} (h : Instr.ofSlot slot lh = some i) {d : DState} {c : Ctx} :
    rowAt i d c ↔ (d = .decVerbatim ∨ d = .decAligned) ∧ c = .started := by
  unfold Instr.ofSlot at h
  split at h <;> cases h <;> exact Iff.rfl

theorem rowAt_decodeMain {m : BitVec 10} {i : Instr} (h : decodeMain m = .ok i) {d : DState} {c : Ctx}
    (hd : d = .decVerbatim ∨ d = .decAligned) (hc : c = .started) : rowAt i d c := by
  unfold decodeMain at h
  split at h
  · cases h
    exact ⟨hd, hc⟩
  · split at h
    · next j hj =>
      cases h
      exact (rowAt_ofSlot hj).mpr ⟨hd, hc⟩
    · cases h

theorem rowAt_decodePre {z : BitVec 5} {i : Instr} (h : decodePre z = .ok i) {d : DState} {c : Ctx}
    (hc : ∃ h p x, c = .preSym h p x) : rowAt i d c := by
  unfold decodePre at h
  split at h
  · cases h; exact hc
  · split at h
    · cases h; exact hc
    · split at h
      · cases h; exact hc
      · split at h <;> cases h
        exact hc

/-- The row that a selecting word stands for runs in the state that selected the word. -/
theorem Selected.rowAt {v t : State} {w : Fetched} {i : Instr} {p : Params} (h : Selected v w t)
    (hi : instrOf p w = some i) : Machine.rowAt i v.sess.ds (awaited v) := by
  obtain ⟨hdec, -⟩ := instrOf_eq_some.mp hi
  cases h with
  | badMagic _ hds haw | container _ _ _ hds haw =>
    cases hdec
    unfold decodeContainer
    split
    · exact ⟨hds, haw⟩
    · split <;> exact ⟨hds, haw⟩
  | frame _ hds haw =>
    simp only [decode] at hdec
    split at hdec <;> cases hdec <;> exact ⟨hds, haw⟩
  | stream _ hds haw =>
    simp only [decode] at hdec
    split at hdec <;> cases hdec <;> exact ⟨hds, haw⟩
  | block _ hds haw =>
    cases hdec
    unfold decodeBlock
    split
    · exact ⟨hds, haw⟩
    · split
      · exact ⟨hds, haw⟩
      · split <;> exact ⟨hds, haw⟩
  | mainSym m hds haw => exact rowAt_decodeMain hdec hds haw
  | preSym h p x z haw => exact rowAt_decodePre hdec ⟨h, p, x, haw⟩
  | lenFooter slot haw =>
    simp only [decode] at hdec
    cases hdec
    exact ⟨slot, haw⟩
  | rawPayload hds haw => cases hdec; exact ⟨hds, haw⟩
  | rawByte b hds haw => cases hdec; exact ⟨hds, haw⟩
  | alignedLens h haw => cases hdec; exact ⟨h, haw⟩
  | pretree h p haw => cases hdec; exact ⟨h, p, haw⟩
  | alignedSym slot len haw => cases hdec; exact ⟨slot, len, haw⟩
  | uncompBody h haw => cases hdec; exact ⟨h, haw⟩
  | oddPad haw => cases hdec; exact haw

/-! ## The two ways a step ends legally -/

section
variable {v t : State} (ho : Opened v) (hf : elementFrame v t)
  (hout : t.out.wf = true ∧ t.out.below v.cfg.outCap = true) (hshape : sessionShape v.cfg t.sess = true)
  (hblock : blockOk t.sess = true) (howed : owedOk v t.sess = true)
include ho hf hout hshape hblock howed

/-- The step commits: the session fits its engine state. -/
theorem legal_of_committed (hp : t.pend = none) (hok : stateOk t.sess = true) : legal t = true := by
  obtain ⟨hin, hbelow, -, -, hlen⟩ := memoriesOk_iff.mp ho.memories
  have hmem : memoriesOk t = true := by
    rw [memoriesOk_iff]
    unfold elementFrame at hf
    rw [hf]
    exact ⟨hin, hbelow, hout.1, hout.2, hlen⟩
  unfold elementFrame at hf
  have hcfg : t.cfg = v.cfg := by rw [hf]
  have hbusy : t.busy = true := by rw [hf]; exact ho.busy
  have hdone : t.done = false := by rw [hf]; exact ho.done
  have hfailed : t.failed = false := by rw [hf]; exact ho.failed
  have howed : owedOk t t.sess = true := by
    rw [owedOk_iff] at howed ⊢
    rw [hf]
    exact howed
  rw [legal_iff, hcfg, seen_of_none hp]
  refine ⟨ho.valid, hmem, ⟨hshape, hshape, rfl, rfl⟩, ?_, ?_⟩
  · rw [statusOk_iff, hdone, hfailed]
    exact ⟨by decide, fun _ => ⟨rfl, rfl⟩, fun _ => hbusy⟩
  · rw [liveOk, hp, hblock, howed, hok]
    cases t.busy <;> rfl

/-- The step goes on: the session has its engine state and registers still, and fits the element awaited. -/
theorem legal_of_awaiting {c : Ctx} (hp : t.pend = some ⟨v.seen, c⟩) (hds : t.sess.ds = v.sess.ds)
    (hregs : t.sess.regs = v.sess.regs) (hctx : ctxOk v c t.sess = true) : legal t = true := by
  obtain ⟨hin, hbelow, -, -, hlen⟩ := memoriesOk_iff.mp ho.memories
  have hmem : memoriesOk t = true := by
    rw [memoriesOk_iff]
    unfold elementFrame at hf
    rw [hf]
    exact ⟨hin, hbelow, hout.1, hout.2, hlen⟩
  unfold elementFrame at hf
  have hcfg : t.cfg = v.cfg := by rw [hf]
  have hbusy : t.busy = true := by rw [hf]; exact ho.busy
  have hdone : t.done = false := by rw [hf]; exact ho.done
  have hfailed : t.failed = false := by rw [hf]; exact ho.failed
  have howed : owedOk t t.sess = true := by
    rw [owedOk_iff] at howed ⊢
    rw [hf]
    exact howed
  have hctx : ctxOk t c t.sess = true := by
    unfold ctxOk at hctx ⊢
    rw [hcfg]
    exact hctx
  rw [legal_iff, hcfg, seen_of_some hp]
  refine ⟨ho.valid, hmem, ⟨hshape, ho.base, ho.ds.trans hds.symm, ho.regs.trans hregs.symm⟩, ?_, ?_⟩
  · rw [statusOk_iff, hdone, hfailed]
    exact ⟨by decide, fun _ => ⟨rfl, rfl⟩, fun _ => hbusy⟩
  · rw [liveOk, hp, hblock, howed]
    show (!t.busy || (true && true && ctxOk t c t.sess)) = true
    rw [hctx]
    cases t.busy <;> rfl

end

theorem Opened.out {v : State} (ho : Opened v) : v.out.wf = true ∧ v.out.below v.cfg.outCap = true := by
  obtain ⟨-, -, h1, h2, -⟩ := memoriesOk_iff.mp ho.memories
  exact ⟨h1, h2⟩

/-- Entering FAILED from a legal session is legal. -/
theorem legal_of_faulted {e : SessionError} {s t : State} (h : faulted e s t) (hv : s.cfg.valid = true)
    (hm : memoriesOk s = true) (hbase : sessionShape s.cfg s.seen = true) (hd : s.done = false) : legal t = true := by
  have hseen : t.seen = { s.seen with ds := .failed } := by
    unfold faulted at h
    rw [h]
    rfl
  unfold faulted at h
  rw [legal_iff, hseen, statusOk_iff]
  rw [h]
  exact ⟨hv, hm, ⟨hbase, hbase, rfl, rfl⟩, ⟨fun h => absurd (hd.symm.trans h.1) (by decide),
    fun h => absurd h Bool.false_ne_true, fun h => absurd rfl h⟩, rfl⟩

theorem Opened.legal_of_faulted {e : SessionError} {v t : State} (ho : Opened v) (h : faulted e v t) : legal t = true :=
  Machine.legal_of_faulted h ho.valid ho.memories ho.base ho.done

end Sys2Proof.Machine
end

section
/-! SUPPORT. Every element of the engine keeps the machine legal: effect by effect, then the host's accesses, then the whole step
(10_state.md section 2, section 3, section 7, 20_memory.md section 1). -/

namespace Sys2Proof.Machine

/-! ## What an engine state and an element awaited say -/

section
variable {t : Session}

theorem stateOk_container (h : t.ds = .container) : stateOk t = true ↔
    t.blockRem = 0 ∧ t.headerRead = false ∧ t.frameRem = 0 ∧ t.produced = 0 ∧ t.decSize = 0 := by
  simp [stateOk, h, and_assoc]

theorem stateOk_rawCopy (h : t.ds = .rawCopy) : stateOk t = true ↔
    t.blockRem = 0 ∧ t.frameRem = 0 ∧ t.produced = 0 := by
  simp [stateOk, h, and_assoc]

theorem stateOk_frameHdr (h : t.ds = .frameHdr) : stateOk t = true ↔
    t.frameRem = 0 ∧ (t.headerRead = true ∨ t.blockRem = 0) := by
  simp [stateOk, h]

theorem stateOk_streamHdr (h : t.ds = .streamHdr) : stateOk t = true ↔
    t.blockRem = 0 ∧ t.frameRem ≠ 0 ∧ t.headerRead = false := by
  simp [stateOk, h, and_assoc]

/-- A block header is read: no block is under way, the frame still owes bytes, the stream header has been read. -/
def inHeader (t : Session) : Prop := t.blockRem = 0 ∧ t.frameRem ≠ 0 ∧ t.headerRead = true

theorem stateOk_blockHdr (h : t.ds = .blockHdr) : stateOk t = true ↔ inHeader t := by
  simp [stateOk, h, inHeader, and_assoc]

theorem decStateOf_eq {b : BitVec 3} {d : DState} : decStateOf b = some d ↔
    (b = 1 ∧ d = .decVerbatim) ∨ (b = 2 ∧ d = .decAligned) ∨ (b = 3 ∧ d = .decUncomp) := by
  unfold decStateOf
  constructor
  · intro h
    split at h
    · next h1 => cases h; exact .inl ⟨h1, rfl⟩
    · split at h
      · next h2 => cases h; exact .inr (.inl ⟨h2, rfl⟩)
      · split at h
        · next h3 => cases h; exact .inr (.inr ⟨h3, rfl⟩)
        · cases h
  · rintro (⟨rfl, rfl⟩ | ⟨rfl, rfl⟩ | ⟨rfl, rfl⟩) <;> rfl

/-- A block is decoded: its type is that of the engine state, and the block and the frame still owe bytes. -/
def inBlock (t : Session) : Prop :=
  decStateOf t.blockType = some t.ds ∧ t.blockRem ≠ 0 ∧ t.frameRem ≠ 0 ∧ t.headerRead = true

theorem stateOk_dec (h : t.ds = .decVerbatim ∨ t.ds = .decAligned ∨ t.ds = .decUncomp) :
    stateOk t = true ↔ inBlock t := by
  unfold inBlock
  rw [decStateOf_eq]
  obtain h | h | h := h <;> simp [stateOk, h, and_assoc]

theorem treeHdrOk_iff {h : BlockHdr} {p : Pass} : treeHdrOk h p t = true ↔
    t.ds = .blockHdr ∧ inHeader t ∧ (h.type = 1 ∨ h.type = 2 ∧ builtLens t.alLen = true)
      ∧ (p = .lengths → builtLens t.mainLen = true) := by
  cases p <;> simp [treeHdrOk, inHeader, and_assoc]

end

namespace Opened

section
variable {v : State} (ho : Opened v)
include ho

theorem state (haw : awaited v = .started) : stateOk v.sess = true := by
  obtain ⟨-, h⟩ | h := ho.ctx
  · exact h
  · rw [haw] at h
    cases h

theorem context {c : Ctx} (haw : awaited v = c) (hc : c ≠ .started) : ctxOk v c v.sess = true := by
  obtain ⟨h, -⟩ | h := ho.ctx
  · exact absurd (haw.symm.trans h) hc
  · rwa [haw] at h

theorem alignedLens {h : BlockHdr} (haw : awaited v = .alignedLens h) :
    v.sess.ds = .blockHdr ∧ inHeader v.sess ∧ h.type = 2 := by
  have := ho.context haw nofun
  simpa [ctxOk, inHeader, and_assoc] using this

theorem pretree {h : BlockHdr} {p : Pass} (haw : awaited v = .pretree h p) : treeHdrOk h p v.sess = true :=
  ho.context haw nofun

theorem preSym {h : BlockHdr} {p : Pass} {x : Nat} (haw : awaited v = .preSym h p x) :
    treeHdrOk h p v.sess = true ∧ builtLens v.sess.preLen = true :=
  Bool.and_eq_true_iff.mp (ho.context haw nofun)

theorem lenFooter {slot : Nat} (haw : awaited v = .lenFooter slot) :
    (v.sess.ds = .decVerbatim ∨ v.sess.ds = .decAligned) ∧ stateOk v.sess = true ∧ slot < v.cfg.numPositionSlots := by
  have := ho.context haw nofun
  simpa [ctxOk, and_assoc] using this

theorem alignedSym {slot len : Nat} (haw : awaited v = .alignedSym slot len) :
    v.sess.ds = .decAligned ∧ stateOk v.sess = true ∧ 3 ≤ slot ∧ slot < v.cfg.numPositionSlots := by
  have := ho.context haw nofun
  simpa [ctxOk, and_assoc] using this

theorem uncompAlignR {h : BlockHdr} (haw : awaited v = .uncompAlignR h) :
    v.sess.ds = .blockHdr ∧ inHeader v.sess ∧ h.type = 3 := by
  have := ho.context haw nofun
  simpa [ctxOk, inHeader, and_assoc] using this

theorem oddPad (haw : awaited v = .oddPad) :
    v.sess.ds = .decUncomp ∧ v.sess.blockType = 3 ∧ v.sess.blockRem = 0 ∧ v.sess.headerRead = true := by
  have := ho.context haw nofun
  simpa [ctxOk, and_assoc] using this

/-- Where a match completes, a Verbatim or Aligned block is decoded. -/
theorem inBlock_of_isMatch {i : Instr} (hi : isMatch i v) (hrow : rowAt i v.sess.ds (awaited v)) :
    (v.sess.ds = .decVerbatim ∨ v.sess.ds = .decAligned) ∧ inBlock v.sess := by
  have block (hds : v.sess.ds = .decVerbatim ∨ v.sess.ds = .decAligned) (hok : stateOk v.sess = true) :
      (v.sess.ds = .decVerbatim ∨ v.sess.ds = .decAligned) ∧ inBlock v.sess :=
    ⟨hds, (stateOk_dec (hds.imp_right .inl)).mp hok⟩
  obtain ⟨slot, lh, hslot⟩ | ⟨rfl, slot, haw⟩ | ⟨rfl, slot, len, haw⟩ := hi
  · obtain ⟨hds, haw⟩ := (rowAt_ofSlot hslot).mp hrow
    exact block hds (ho.state haw)
  · obtain ⟨hds, hok, -⟩ := ho.lenFooter haw
    exact block hds hok
  · obtain ⟨hds, hok, -⟩ := ho.alignedSym haw
    exact block (.inr hds) hok

end

end Opened

/-! ## The ends of elements -/

/-- The tail of a block header, in one record (43_lzx_blocks.md R115, R120). -/
theorem headerTail_eq (b : BlockHdr) (d : DState) (s : State) :
    headerTail b d s = { s with
      pend := none
      sess := { s.sess with
        blockType := b.type, blockLen := b.len, blockRem := b.len
        ds := if b.len = 0 then .blockHdr else d
        rdC := if b.len = 0 ∧ b.type = 3 then (reinit s).sess.rdC else s.sess.rdC
        rdQ := if b.len = 0 ∧ b.type = 3 then [] else s.sess.rdQ } } := by
  unfold headerTail blockEnd
  dsimp only
  by_cases h0 : b.len = 0
  · by_cases h3 : b.type = 3
    · simp only [h0, h3, if_true, and_self]
      rfl
    · simp only [h0, h3, if_true, if_false, and_false]
      rfl
  · simp only [h0, if_false, false_and]
    rfl

theorem sessionShape_of_rdQ {p : Params} {t t' : Session} (h : sessionShape p t = true) (hq : t'.rdQ.length ≤ 31)
    (heq : t' = { t' with
      mainLen := t.mainLen, lenLen := t.lenLen, alLen := t.alLen, preLen := t.preLen
      win := t.win, wpos := t.wpos, written := t.written }) : sessionShape p t' = true := by
  obtain ⟨h1, h2, h3, h4, h5, h6, h7, h8, -⟩ := sessionShape_iff.mp h
  rw [heq]
  exact sessionShape_iff.mpr ⟨h1, h2, h3, h4, h5, h6, h7, h8, hq⟩

section
variable {v u : State} (ho : Opened v) (hf : elementFrame v u)
  (hout : u.out.wf = true ∧ u.out.below v.cfg.outCap = true) (hshape : sessionShape v.cfg u.sess = true)
include ho hf hout hshape

/-- A block header ends: its block is under way, or of length 0. -/
theorem legal_headerTail {b : BlockHdr} {d : DState} (hhdr : inHeader u.sess) (howed : owedOk v u.sess = true)
    (hd : decStateOf b.type = some d)
    (htrees : b.type ≠ 3 → builtLens u.sess.mainLen = true ∧ builtLens u.sess.lenLen = true)
    (hal : b.type = 2 → builtLens u.sess.alLen = true) : legal (headerTail b d u) = true := by
  obtain ⟨-, hframe, hread⟩ := hhdr
  obtain ⟨-, -, -, -, -, -, -, -, hq⟩ := sessionShape_iff.mp hshape
  have htail := headerTail_frame b d u
  rw [headerTail_eq] at htail ⊢
  refine legal_of_committed ho (elementFrame_trans hf htail.1) hout ?_ ?_ howed htail.2 ?_
  · refine sessionShape_of_rdQ hshape ?_ rfl
    dsimp only
    split
    · exact Nat.zero_le _
    · exact hq
  · rw [blockOk_iff]
    refine fun _ => ⟨?_, htrees, hal⟩
    obtain ⟨h, -⟩ | ⟨h, -⟩ | ⟨h, -⟩ := decStateOf_eq.mp hd
    · exact .inl h
    · exact .inr (.inl h)
    · exact .inr (.inr h)
  · by_cases h0 : b.len = 0
    · rw [stateOk_blockHdr (if_pos h0)]
      exact ⟨h0, hframe, hread⟩
    · have hds : (if b.len = 0 then DState.blockHdr else d) = d := if_neg h0
      rw [stateOk_dec, inBlock]
      · dsimp only
        rw [hds]
        exact ⟨hd, h0, hframe, hread⟩
      · dsimp only
        rw [hds]
        obtain ⟨-, h⟩ | ⟨-, h⟩ | ⟨-, h⟩ := decStateOf_eq.mp hd
        · exact .inl h
        · exact .inr (.inl h)
        · exact .inr (.inr h)

/-- An element's step ends behind its output (44_lzx_symbols.md R130). -/
theorem legal_afterElement (hblock : blockOk u.sess = true) (howed : owedOk v u.sess = true)
    (hdec : u.sess.blockRem ≠ 0 → decStateOf u.sess.blockType = some u.sess.ds) (hread : u.sess.headerRead = true) :
    legal (afterElement u) = true := by
  obtain ⟨hafter, hp⟩ := afterElement_frame u
  rw [afterElement_eq] at hafter hp ⊢
  refine legal_of_committed ho (elementFrame_trans hf hafter) hout hshape hblock howed hp ?_
  by_cases hfr : u.sess.frameRem = 0
  · have h : afterCounts u.sess u.sess.blockRem u.sess.frameRem = (.frameHdr, u.sess.frameBase + u.sess.frameLen) :=
      if_pos hfr
    rw [h, stateOk_frameHdr rfl]
    exact ⟨hfr, .inl hread⟩
  · by_cases hbr : u.sess.blockRem = 0
    · have h : afterCounts u.sess u.sess.blockRem u.sess.frameRem = (.blockHdr, u.sess.inPos) :=
        (if_neg hfr).trans (if_pos hbr)
      rw [h, stateOk_blockHdr rfl]
      exact ⟨hbr, hfr, hread⟩
    · have h : afterCounts u.sess u.sess.blockRem u.sess.frameRem = (u.sess.ds, u.sess.inPos) :=
        (if_neg hfr).trans (if_neg hbr)
      have hds := hdec hbr
      rw [h, stateOk_dec]
      · exact ⟨hds, hbr, hfr, hread⟩
      · obtain ⟨-, h⟩ | ⟨-, h⟩ | ⟨-, h⟩ := decStateOf_eq.mp hds
        · exact .inl h
        · exact .inr (.inl h)
        · exact .inr (.inr h)

/-- The accounting of output, in a block whose registers only a match of a block with trees has written. -/
theorem legal_account {k : Nat} {p : Pending} (hp : v.pend = some p) (hup : u.pend = v.pend)
    (hds : u.sess.ds = v.sess.ds) (hregs : u.sess.blockType = 3 → u.sess.regs = v.sess.regs)
    (hdec : decStateOf u.sess.blockType = some u.sess.ds) (hread : u.sess.headerRead = true)
    (howed : u.sess.produced + (u.sess.frameRem - k) ≤ u.sess.decSize ∧ u.sess.decSize ≤ v.cfg.outCap
      ∧ u.sess.frameBase + u.sess.frameLen ≤ v.inLen)
    (hblock : blockOk u.sess = true) (hpos : u.sess.blockRem ≠ 0) : legal (account k u) = true := by
  have hblock' : blockOk { u.sess with blockRem := u.sess.blockRem - k, frameRem := u.sess.frameRem - k } = true :=
    blockOk_iff.mpr fun _ => (blockOk_iff (t := u.sess)).mp hblock hpos
  have howed' : owedOk v { u.sess with blockRem := u.sess.blockRem - k, frameRem := u.sess.frameRem - k } = true :=
    owedOk_iff.mpr howed
  obtain ⟨hrem, h3, -, -, heq⟩ | ⟨hrem, h3, -, heq⟩ | ⟨-, heq⟩ := account_cases k u
  · rw [heq]
    refine legal_of_awaiting (c := .oddPad) ho (elementFrame_trans hf rfl) hout hshape hblock' howed' ?_ hds (hregs h3) ?_
    · rw [await_pend]
      exact congrArg (fun x => some (Pending.mk x .oddPad)) (seen_congr_some hp hup)
    · have hun : u.sess.ds = .decUncomp := by
        obtain ⟨h, -⟩ | ⟨h, -⟩ | ⟨-, h⟩ := decStateOf_eq.mp hdec
        · exact absurd (h3.symm.trans h) (by decide)
        · exact absurd (h3.symm.trans h) (by decide)
        · exact h
      simp [ctxOk, hun, h3, hrem, hread]
  · rw [heq]
    refine legal_afterElement ho (elementFrame_trans hf rfl) hout ?_ ?_ ?_ (fun h => absurd hrem h) hread
    · exact sessionShape_of_rdQ hshape (Nat.zero_le _) rfl
    · exact hblock'
    · exact howed'
  · rw [heq]
    exact legal_afterElement ho (elementFrame_trans hf rfl) hout hshape hblock' howed' (fun _ => hdec) hread

end

/-! ## Length arrays -/

theorem mem_fillEntries {ls : List Nat} {x k n l : Nat} (h : l ∈ fillEntries ls x k n) : l = n ∨ l ∈ ls := by
  obtain ⟨j, hj, rfl⟩ := List.getElem_of_mem h
  have hlen : j < ls.length := by rwa [fillEntries_length] at hj
  have hget := fillEntries_getD ls x k n j hlen
  rw [List.getD_eq_getElem _ _ hj, List.getD_eq_getElem _ _ hlen] at hget
  rw [hget]
  split
  · exact .inl rfl
  · exact .inr (List.getElem_mem hlen)

theorem lensOk_fillEntries {n m x k l : Nat} {ls : List Nat} (h : lensOk n m ls = true) (hl : l ≤ m) :
    lensOk n m (fillEntries ls x k l) = true := by
  obtain ⟨hlen, hle⟩ := (lensOk_iff ..).mp h
  refine (lensOk_iff ..).mpr ⟨by rw [fillEntries_length, hlen], fun y hy => ?_⟩
  obtain rfl | hmem := mem_fillEntries hy
  · exact hl
  · exact hle y hmem

/-! ## The effects -/

section
variable {v t : State} (ho : Opened v)
include ho

theorem Opened.owes : v.sess.produced + v.sess.frameRem ≤ v.sess.decSize ∧ v.sess.decSize ≤ v.cfg.outCap
    ∧ v.sess.frameBase + v.sess.frameLen ≤ v.inLen := owedOk_iff.mp ho.owed

/-- A step that ends at once, its header CSRs written: a container or the stream header. -/
theorem legal_of_header (hok : stateOk t.sess = true) (hblock : blockOk t.sess = true) (howed : owedOk v t.sess = true)
    (hshape : sessionShape v.cfg t.sess = true)
    (ht : t = { v with
      pend := none
      hdrPlatform := t.hdrPlatform, hdrVersion := t.hdrVersion, hdrFlags := t.hdrFlags
      hdrFileSize := t.hdrFileSize, hdrDecSize := t.hdrDecSize, compressed := t.compressed
      e8FileSize := t.e8FileSize, e8Present := t.e8Present
      sess := t.sess }) : legal t = true := by
  have h : legal ({ v with pend := none, sess := t.sess } : State) = true :=
    legal_of_committed (t := { v with pend := none, sess := t.sess }) ho rfl ho.out hshape hblock howed rfl hok
  rw [ht]
  exact h

theorem legal_rawCopy {out : Memory}
    (hout : ∀ c, v.sess.decSize ≤ c → v.out.wf = true → v.out.below c = true → out.wf = true ∧ out.below c = true) :
    legal ({ v with
      pend := none, out := out, outLen := v.sess.decSize, busy := false, done := true
      sess := { v.sess with produced := v.sess.decSize, ds := .done } } : State) = true := by
  obtain ⟨hin, hbelow, -, -, hlen⟩ := memoriesOk_iff.mp ho.memories
  obtain ⟨hwf, hb⟩ := hout v.cfg.outCap ho.owes.2.1 ho.out.1 ho.out.2
  rw [legal_iff, statusOk_iff]
  refine ⟨ho.valid, memoriesOk_iff.mpr ⟨hin, hbelow, hwf, hb, hlen⟩, ⟨ho.live, ho.live, rfl, rfl⟩,
    ⟨fun h => absurd (ho.failed.symm.trans h.2) Bool.false_ne_true, fun h => absurd h Bool.false_ne_true,
      fun h => absurd rfl h⟩, rfl⟩

theorem legal_frame {a hl bs fs : Nat} (hds : v.sess.ds = .frameHdr) (haw : awaited v = .started) (hfs : fs ≠ 0)
    (htotal : fs ≤ v.sess.decSize - v.sess.produced) (hdata : a + hl + bs ≤ v.inLen)
    (h : frameStarted a hl bs fs v t) : legal t = true := by
  obtain ⟨hrem, hread⟩ := (stateOk_frameHdr hds).mp (ho.state haw)
  obtain ⟨howed, hcap, -⟩ := ho.owes
  obtain ⟨heq, hstream, hblock, hdec⟩ := h
  have hsess : t.sess = { v.sess with
      fhdrPos := a, frameBase := a + hl, frameLen := bs, rdC := 0, rdQ := [], frameSize := fs, frameRem := fs
      frameCount := v.sess.frameCount + 1, ds := t.sess.ds } := by rw [heq]
  refine legal_of_committed ho (by unfold elementFrame; rw [heq]) (by rw [heq]; exact ho.out) ?_ ?_ ?_ (by rw [heq]) ?_
  · rw [hsess]
    exact sessionShape_of_rdQ ho.live (Nat.zero_le _) rfl
  · rw [hsess]
    exact ho.block
  · rw [hsess]
    exact owedOk_iff.mpr ⟨by dsimp only; omega, hcap, hdata⟩
  · by_cases hr : v.sess.headerRead = true
    · by_cases h0 : v.sess.blockRem = 0
      · rw [stateOk_blockHdr (hblock hr h0), hsess]
        exact ⟨h0, hfs, hr⟩
      · have hd := hdec hr h0
        rw [stateOk_dec]
        · rw [hsess]
          exact ⟨hd, h0, hfs, hr⟩
        · obtain ⟨-, h⟩ | ⟨-, h⟩ | ⟨-, h⟩ := decStateOf_eq.mp hd
          · exact .inl h
          · exact .inr (.inl h)
          · exact .inr (.inr h)
    · have hr : v.sess.headerRead = false := by simpa using hr
      rw [stateOk_streamHdr (hstream hr), hsess]
      exact ⟨hread.resolve_left (by rw [hr]; decide), hfs, hr⟩

/-- An element that awaits another one and writes nothing itself. -/
theorem legal_await {c : Ctx} (hctx : ctxOk v c v.sess = true) : legal (await c v) = true :=
  legal_of_awaiting ho rfl ho.out ho.live ho.block ho.owed rfl rfl rfl hctx

/-- A pass goes on, or ends and with it perhaps the header (43_lzx_blocks.md R122, R123): `u` has the entries written. -/
theorem legal_passContinue {u : State} {b : BlockHdr} {p : Pass} {x : Nat} {q : Pending} (hp : v.pend = some q)
    (hf : elementFrame v u) (hup : u.pend = v.pend) (hout : u.out = v.out) (hshape : sessionShape v.cfg u.sess = true)
    (hds : v.sess.ds = .blockHdr) (hregs : u.sess.regs = v.sess.regs) (htree : treeHdrOk b p u.sess = true)
    (hpre : builtLens u.sess.preLen = true) (howed : owedOk v u.sess = true) (h : passContinue b p x u = .ok () t) :
    legal t = true := by
  obtain ⟨huds, hhdr, htype, hmain⟩ := treeHdrOk_iff.mp htree
  have hout : u.out.wf = true ∧ u.out.below v.cfg.outCap = true := by rw [hout]; exact ho.out
  have hblock : blockOk u.sess = true := blockOk_iff.mpr fun h => absurd hhdr.1 h
  have go {c : Ctx} (hctx : ctxOk v c u.sess = true) : legal (await c u) = true :=
    legal_of_awaiting (c := c) ho (elementFrame_trans hf rfl) hout hshape hblock howed
      (by rw [await_pend]; exact congrArg (fun x => some (Pending.mk x c)) (seen_congr_some hp hup))
      (huds.trans hds.symm) hregs hctx
  obtain ⟨-, rfl⟩ | ⟨-, rfl⟩ | ⟨rfl, hbuilt, rfl⟩ | ⟨rfl, hbuilt, rfl⟩ := passContinue_cases h
  · exact go (Bool.and_eq_true_iff.mpr ⟨htree, hpre⟩)
  · exact go (treeHdrOk_iff.mpr ⟨huds, hhdr, htype, nofun⟩)
  · exact go (treeHdrOk_iff.mpr ⟨huds, hhdr, htype, fun _ => hbuilt⟩)
  · refine legal_headerTail ho hf hout hshape hhdr howed ?_ (fun _ => ⟨hmain rfl, hbuilt⟩) fun h2 => ?_
    · unfold treeDecState
      obtain h1 | ⟨h2, -⟩ := htype
      · rw [h1]
        rfl
      · rw [h2]
        rfl
    · obtain h1 | ⟨-, hal⟩ := htype
      · exact absurd (h1.symm.trans h2) (by decide)
      · exact hal

/-- A run of entries of a pass, all of one value. -/
theorem legal_run {b : BlockHdr} {p : Pass} {x k n : Nat} {q : Pending} (hp : v.pend = some q)
    (haw : awaited v = .preSym b p x) (hn : n ≤ 16) (h : passWrite b p x k n v = .ok () t) : legal t = true := by
  obtain ⟨htree, hpre⟩ := ho.preSym haw
  obtain ⟨hds, hhdr, htype, hmain⟩ := treeHdrOk_iff.mp htree
  obtain ⟨h1, h2, h3⟩ := sessionShape_iff.mp ho.live
  have htree' (arr : List Nat) : treeHdrOk b .mainLow { v.sess with mainLen := arr } = true
      ∧ treeHdrOk b .mainHigh { v.sess with mainLen := arr } = true :=
    ⟨treeHdrOk_iff.mpr ⟨hds, hhdr, htype, nofun⟩, treeHdrOk_iff.mpr ⟨hds, hhdr, htype, nofun⟩⟩
  cases p with
  | mainLow =>
    exact legal_passContinue (u := Pass.mainLow.setArr (fillEntries (Pass.mainLow.arr v) x k n) v) ho hp rfl rfl rfl
      (sessionShape_iff.mpr ⟨lensOk_fillEntries h1 hn, h2, h3⟩) hds rfl (htree' _).1 hpre ho.owed h
  | mainHigh =>
    exact legal_passContinue (u := Pass.mainHigh.setArr (fillEntries (Pass.mainHigh.arr v) x k n) v) ho hp rfl rfl rfl
      (sessionShape_iff.mpr ⟨lensOk_fillEntries h1 hn, h2, h3⟩) hds rfl (htree' _).2 hpre ho.owed h
  | lengths =>
    exact legal_passContinue (u := Pass.lengths.setArr (fillEntries (Pass.lengths.arr v) x k n) v) ho hp rfl rfl rfl
      (sessionShape_iff.mpr ⟨h1, lensOk_fillEntries h2 hn, h3⟩) hds rfl (treeHdrOk_iff.mpr ⟨hds, hhdr, htype, hmain⟩) hpre ho.owed h

/-- A byte of output, in a block of any type. -/
theorem legal_emitted {p : Pending} (hp : v.pend = some p) (hin : inBlock v.sess) (b : Byte) :
    legal (account 1 (emit b v)) = true := by
  obtain ⟨hdec, hbr, hfr, hread⟩ := hin
  obtain ⟨h1, h2, h3, h4, hwf, hbelow, hpos, hwr, hq⟩ := sessionShape_iff.mp ho.live
  obtain ⟨howed, hcap, hdata⟩ := ho.owes
  refine legal_account (v := v) (u := emit b v) ho rfl ?_ ?_ hp rfl rfl (fun _ => rfl) hdec hread ⟨?_, hcap, hdata⟩
    (blockOk_iff.mpr (blockOk_iff.mp ho.block)) hbr
  · exact ⟨Memory.wf_set ho.out.1 _ _, Memory.below_set ho.out.2 (by omega) _⟩
  · exact sessionShape_iff.mpr ⟨h1, h2, h3, h4, Memory.wf_set hwf _ _, Memory.below_set hbelow hpos _,
      Nat.mod_lt _ (windowSize_pos _), Nat.min_le_right .., hq⟩
  · rw [emit_sess]
    dsimp only
    omega

/-- A match, in a block with trees. -/
theorem legal_matched {len off : Nat} {r : Word × Word × Word} {p : Pending} (hp : v.pend = some p)
    (hin : inBlock v.sess) (hds : v.sess.ds = .decVerbatim ∨ v.sess.ds = .decAligned) (hok : matchAllowed len off v) :
    legal (account len ((copyMatch len off v).setR r.1 r.2.1 r.2.2)) = true := by
  obtain ⟨hdec, hbr, hfr, hread⟩ := hin
  obtain ⟨hlen, hlen', -⟩ := hok
  obtain ⟨h1, h2, h3, h4, hwf, hbelow, hpos, hwr, hq⟩ := sessionShape_iff.mp ho.live
  obtain ⟨howed, hcap, hdata⟩ := ho.owes
  obtain ⟨hout, houtb, hwin, hwinb⟩ :=
    copyMatch_memories len off v (c := v.cfg.outCap) ho.out.1 ho.out.2 (by omega) hwf hbelow hpos
  obtain ⟨hwpos, hwritten⟩ := copyMatch_counters len off v hpos hwr
  have hframe := copyMatch_frame len off v
  generalize copyMatch len off v = u at *
  have hsess : u.sess = { v.sess with
      win := u.sess.win, wpos := u.sess.wpos, written := u.sess.written, produced := v.sess.produced + len } := by
    rw [hframe]
  have hpend : u.pend = v.pend := by rw [hframe]
  have hel : elementFrame v u := by
    unfold elementFrame
    rw [hframe]
  have hne : v.sess.blockType ≠ 3 := by
    intro h3
    rw [h3] at hdec
    obtain h | h := hds <;> rw [h] at hdec <;> cases hdec
  refine legal_account (v := v) (u := u.setR r.1 r.2.1 r.2.2) ho (elementFrame_trans hel rfl) ⟨hout, houtb⟩ ?_ hp hpend
    ?_ ?_ ?_ ?_ ?_ ?_ ?_
  · rw [State.setR_sess, hsess]
    refine sessionShape_iff.mpr ⟨h1, h2, h3, h4, hwin, hwinb, ?_, ?_, hq⟩
    · rw [hwpos]
      exact Nat.mod_lt _ (windowSize_pos _)
    · rw [hwritten]
      exact Nat.min_le_right ..
  · rw [State.setR_sess, hsess]
  · rw [State.setR_sess, hsess]
    exact fun h => absurd h hne
  · rw [State.setR_sess, hsess]
    exact hdec
  · rw [State.setR_sess, hsess]
    exact hread
  · rw [State.setR_sess, hsess]
    dsimp only
    omega
  · rw [State.setR_sess, hsess]
    exact ho.block
  · rw [State.setR_sess, hsess]
    exact hbr

end

end Sys2Proof.Machine
end

section
/-! SUPPORT. Whole steps from a legal state: the step keeps the machine legal, keeps the window's history, and raises only the
faults of the table of causes (10_state.md R45, 60_exceptions.md R171). -/

namespace Sys2Proof.Machine

/-! ## Legality -/

/-- Every effect of a row that runs in its own state ends in a legal state. -/
theorem Effect.legal {v t : State} {i : Instr} {p : Pending} (ho : Opened v) (hp : v.pend = some p)
    (hwf : i.wellFormed v.cfg = true) (hrow : rowAt i v.sess.ds (awaited v)) (he : Effect v i t) :
    Machine.legal t = true := by
  obtain ⟨howed, hcap, hdata⟩ := ho.owes
  cases he with
  | contRaw platform version flags fileSize hfit =>
    obtain ⟨hds, haw⟩ := hrow
    obtain ⟨hbr, -, hfr, hprod, -⟩ := (stateOk_container hds).mp (ho.state haw)
    exact legal_of_header ho ((stateOk_rawCopy rfl).mpr ⟨hbr, hfr, hprod⟩) ho.block
      (owedOk_iff.mpr ⟨by dsimp only; omega, hfit, hdata⟩) ho.live rfl
  | contCompressed platform version flags fileSize size hlen hfit =>
    obtain ⟨hds, haw⟩ := hrow
    obtain ⟨hbr, -, hfr, -⟩ := (stateOk_container hds).mp (ho.state haw)
    exact legal_of_header ho ((stateOk_frameHdr rfl).mpr ⟨hfr, .inr hbr⟩) ho.block
      (owedOk_iff.mpr ⟨by dsimp only; omega, hfit, hdata⟩) ho.live rfl
  | rawCopy out hout => exact legal_rawCopy ho hout
  | frame a hl bs fs hi hbs hfs htotal hdata hstart =>
    have hrow : v.sess.ds = .frameHdr ∧ awaited v = .started := by
      obtain rfl | ⟨h0, rfl⟩ := hi <;> exact hrow
    exact legal_frame ho hrow.1 hrow.2 hfs htotal hdata hstart
  | e8 present size register hi =>
    have hrow : v.sess.ds = .streamHdr ∧ awaited v = .started := by
      obtain rfl | rfl := hi <;> exact hrow
    obtain ⟨hbr, hfr, -⟩ := (stateOk_streamHdr hrow.1).mp (ho.state hrow.2)
    exact legal_of_header ho ((stateOk_blockHdr rfl).mpr ⟨hbr, hfr, rfl⟩) ho.block ho.owed ho.live rfl
  | blkVerbatim n =>
    obtain ⟨hds, haw⟩ := hrow
    have hhdr := (stateOk_blockHdr hds).mp (ho.state haw)
    exact legal_await ho (treeHdrOk_iff.mpr ⟨hds, hhdr, .inl rfl, nofun⟩)
  | blkAligned n =>
    obtain ⟨hds, haw⟩ := hrow
    obtain ⟨hbr, hfr, hread⟩ := (stateOk_blockHdr hds).mp (ho.state haw)
    exact legal_await ho (by simp [ctxOk, hds, hbr, hfr, hread])
  | blkUncomp n =>
    obtain ⟨hds, haw⟩ := hrow
    obtain ⟨hbr, hfr, hread⟩ := (stateOk_blockHdr hds).mp (ho.state haw)
    exact legal_await ho (by simp [ctxOk, hds, hbr, hfr, hread])
  | alignedLens b ls haw hls hbuilt =>
    obtain ⟨hds, hhdr, htype⟩ := ho.alignedLens haw
    obtain ⟨h1, h2, -, h4⟩ := sessionShape_iff.mp ho.live
    refine legal_of_awaiting (c := .pretree b .mainLow) ho rfl ho.out (sessionShape_iff.mpr ⟨h1, h2, hls, h4⟩) ?_ ho.owed ?_
      rfl rfl (treeHdrOk_iff.mpr ⟨hds, hhdr, .inr ⟨htype, hbuilt⟩, nofun⟩)
    · exact blockOk_iff.mpr fun h => absurd hhdr.1 h
    · rw [await_pend]
      exact congrArg (fun x => some (Pending.mk x _)) (seen_congr_some hp rfl)
  | pretree b q ls haw hls hbuilt hpass =>
    have htree := ho.pretree haw
    obtain ⟨hds, -⟩ := treeHdrOk_iff.mp htree
    obtain ⟨h1, h2, h3, -, h5⟩ := sessionShape_iff.mp ho.live
    exact legal_passContinue (u := v.setSess { v.sess with preLen := ls }) ho hp rfl rfl rfl
      (sessionShape_iff.mpr ⟨h1, h2, h3, hls, h5⟩) hds rfl htree hbuilt ho.owed hpass
  | run b q x k n haw hn hpass => exact legal_run ho hp haw hn hpass
  | uncompAlignR b r0 r1 r2 haw hq =>
    obtain ⟨hds, hhdr, htype⟩ := ho.uncompAlignR haw
    refine legal_headerTail (u := v.setR r0 r1 r2) ho rfl ho.out ho.live hhdr ho.owed ?_ (fun h => absurd htype h)
      fun h => absurd (htype.symm.trans h) (by decide)
    rw [htype]
    rfl
  | emitted b hi =>
    have hin : inBlock v.sess := by
      obtain rfl | rfl := hi
      · obtain ⟨hds, haw⟩ := hrow
        exact (stateOk_dec (hds.imp_right .inl)).mp (ho.state haw)
      · obtain ⟨hds, haw⟩ := hrow
        exact (stateOk_dec (.inr (.inr hds))).mp (ho.state haw)
    exact legal_emitted ho hp hin b
  | lenFooter slot lh hi =>
    obtain ⟨hds, haw⟩ := (rowAt_ofSlot hi).mp hrow
    obtain ⟨-, hslot, -⟩ := encode_ofSlot hi v.cfg
    have hslot : slot < v.cfg.numPositionSlots := of_decide_eq_true (hslot.symm.trans hwf)
    refine legal_await ho ?_
    simp only [ctxOk, ho.state haw, hslot, decide_true, Bool.and_true, Bool.or_eq_true, beq_iff_eq]
    exact hds
  | alignedFooter slot len hi h3 hb =>
    have hctx : (v.sess.ds = .decVerbatim ∨ v.sess.ds = .decAligned) ∧ stateOk v.sess = true
        ∧ slot < v.cfg.numPositionSlots := by
      obtain ⟨lh, hi⟩ | ⟨rfl, haw⟩ := hi
      · obtain ⟨hds, haw⟩ := (rowAt_ofSlot hi).mp hrow
        obtain ⟨-, hslot, -⟩ := encode_ofSlot hi v.cfg
        exact ⟨hds, ho.state haw, of_decide_eq_true (hslot.symm.trans hwf)⟩
      · exact ho.lenFooter haw
    obtain ⟨hds, hok, hslot⟩ := hctx
    obtain ⟨hdec, -⟩ := (stateOk_dec (hds.imp_right .inl)).mp hok
    have hal : v.sess.ds = .decAligned := by
      rw [hb] at hdec
      exact (Option.some.inj (hdec : some DState.decAligned = _)).symm
    refine legal_await ho ?_
    simp only [ctxOk, hok, hslot, h3, hal, decide_true, Bool.and_true, beq_self_eq_true]
  | matched len off r hi hok =>
    obtain ⟨hds, hin⟩ := ho.inBlock_of_isMatch hi hrow
    exact legal_matched ho hp hin hds hok
  | oddPad haw =>
    obtain ⟨hds, htype, hbr, hread⟩ := ho.oddPad haw
    exact legal_afterElement (u := reinit (v.setReader (v.sess.rdC + 1) v.sess.rdQ)) ho rfl ho.out
      (sessionShape_of_rdQ ho.live (Nat.zero_le _) rfl) ho.block ho.owed (fun h => absurd hbr h) hread

/-- What the fetch of an engine's word gives the element: an open state, and a row that runs in it. -/
theorem opened_of_selected {s u : State} {w : Fetched} {i : Instr} (h : legal s = true)
    (hgo : s.pend = none → s.busy = true) (hw : Selected (begin (atTurn s)) w u) (hi : instrOf u.cfg w = some i) :
    Opened u ∧ begin u = u ∧ i.wellFormed u.cfg = true ∧ rowAt i u.sess.ds (awaited u) := by
  have ho := opened_of_legal h hgo
  have hpend := (readerOnly_pend hw.readerOnly).trans (begin_pend (atTurn s))
  refine ⟨ho.of_selected hw, begin_of_some hpend, (instrOf_eq_some.mp hi).2, ?_⟩
  have hds : u.sess.ds = (begin (atTurn s)).sess.ds := by rw [readerOnly_sess hw.readerOnly]
  rw [hds, readerOnly_awaited hw.readerOnly]
  exact hw.rowAt hi

/-- An element that raises no fault ends legally. -/
theorem legal_of_moved {u t : State} {i : Instr} (ho : Opened u) (hbegin : begin u = u) (hwf : i.wellFormed u.cfg = true)
    (hrow : rowAt i u.sess.ds (awaited u)) (h : moved i u t) : legal t = true := by
  obtain ⟨v, hread, he⟩ := h
  rw [hbegin] at hread
  have hpend : u.pend = some ⟨u.seen, awaited u⟩ := by rw [← begin_pend, hbegin]
  have hv := ho.of_readOn hread hpend
  refine Effect.legal hv ((readerOnly_pend hread.1).trans hpend) ?_ ?_ he
  · rw [readerOnly_cfg hread.1]
    exact hwf
  · have hds : v.sess.ds = u.sess.ds := by rw [readerOnly_sess hread.1]
    rw [hds, readerOnly_awaited hread.1]
    exact hrow

/-- A host access between steps, or a reset, keeps the machine legal. -/
theorem legal_of_hostOnly {s t : State} (hs : legal s = true) (h : HostOnly s t) : legal t = true := by
  obtain ⟨hv, hm, hshape, hst, hok⟩ := legal_iff.mp hs
  obtain ⟨hin, hbelow, hout, houtb, hlen⟩ := memoriesOk_iff.mp hm
  obtain ⟨hdf, hbdf, hpb⟩ := statusOk_iff.mp hst
  have hframe := h.frame
  have hcfg : t.cfg = s.cfg := by rw [hframe]
  have hout' : t.out = s.out := by rw [hframe]
  have hsess : t.sess = s.sess := by rw [hframe]
  have hpend : t.pend = s.pend := by rw [hframe]
  have hbusy : t.busy = s.busy := by rw [hframe]
  rw [legal_iff, memoriesOk_iff, statusOk_iff, hcfg, hout', hsess, seen_congr hpend hsess, hpend, hbusy]
  refine ⟨hv, ⟨h.wf hin, h.below hbelow, hout, houtb, h.inLen hlen⟩, hshape,
    ⟨fun hdone => hdf ⟨h.done hdone.1, h.failed hdone.2⟩, fun hb => ?_, hpb⟩, ?_⟩
  · obtain ⟨hd, hf⟩ := hbdf hb
    exact ⟨Bool.eq_false_iff.mpr fun h' => absurd (hd.symm.trans (h.done h')) Bool.false_ne_true,
      Bool.eq_false_iff.mpr fun h' => absurd (hf.symm.trans (h.failed h')) Bool.false_ne_true⟩
  · cases hb : s.busy with
    | false => rw [liveOk, hbusy, hb]; rfl
    | true =>
      have howed : owedOk t s.sess = owedOk s s.sess := by rw [owedOk, owedOk, hcfg, (h.busy hb).2]
      have hctx (c : Ctx) : ctxOk t c s.sess = ctxOk s c s.sess := by simp only [ctxOk, hcfg]
      rw [liveOk, hbusy, hsess, hpend, howed]
      simp only [hctx]
      exact hok

theorem legal_hardReset {s : State} (hv : s.cfg.valid = true) : legal (hardReset s) = true := legal_resetOf hv

theorem legal_softReset {s : State} (hv : s.cfg.valid = true) (hm : memoriesOk s = true) (r : Resp) :
    legal ((softResetState s).respond r) = true := by
  obtain ⟨hin, hbelow, hout, houtb, -⟩ := memoriesOk_iff.mp hm
  have hshape := sessionShape_reset s.cfg
  rw [legal_iff, memoriesOk_iff, statusOk_iff]
  exact ⟨hv, ⟨hin, hbelow, hout, houtb, Nat.zero_le _⟩, ⟨hshape, hshape, rfl, rfl⟩,
    ⟨fun h => absurd h.1 Bool.false_ne_true, fun h => absurd h Bool.false_ne_true, fun h => absurd rfl h⟩, rfl⟩

theorem legal_start {s : State} (hv : s.cfg.valid = true) (hm : memoriesOk s = true) (r : Resp) :
    legal ((startSession s).respond r) = true := by
  have hshape := sessionShape_fresh s.cfg
  rw [legal_iff, statusOk_iff]
  refine ⟨hv, hm, ⟨hshape, hshape, rfl, rfl⟩,
    ⟨fun h => absurd h.1 Bool.false_ne_true, fun _ => ⟨rfl, rfl⟩, fun h => absurd rfl h⟩, ?_⟩
  simp [liveOk, startSession, freshSession, blockOk, owedOk, stateOk]

theorem legal_atTurn {s : State} (h : legal s = true) : legal (atTurn s) = true := h

/-- Settles O7: what a step does keeps the invariant, turn by turn and element by element. -/
theorem stepKeepsLegal : Obligations.StepKeepsLegal := by
  unfold Obligations.StepKeepsLegal
  intro s t hs h
  obtain ⟨hv, hm, ⟨hlive, hbase, -⟩, hst, hok⟩ := legal_iff.mp hs
  cases stepCase h with
  | quiet => exact legal_atTurn hs
  | reset => exact legal_hardReset hv
  | complete hp hb hds hall =>
    obtain ⟨-, hbdf, -⟩ := statusOk_iff.mp hst
    have hfailed : s.failed = false := (hbdf hb).2
    rw [legal_iff, statusOk_iff]
    exact ⟨hv, hm, ⟨hlive, hlive, rfl, rfl⟩, ⟨fun h => absurd (hfailed.symm.trans h.2) Bool.false_ne_true,
      fun h => absurd h Bool.false_ne_true, fun h => absurd rfl h⟩, rfl⟩
  | host hp a hexec =>
    cases hostCase (isHost_decodeHost a) hexec with
    | softReset r => exact legal_softReset hv hm r
    | start irqEn hb r => exact legal_start hv hm r
    | other h => exact legal_of_hostOnly (legal_atTurn hs) h
  | element hgo hw hi hexec =>
    obtain ⟨ho, hbegin, hwf, hrow⟩ := opened_of_selected hs hgo hw hi
    obtain hmoved | ⟨e, -, hf⟩ := exec_moved (hw.not_host hi) hexec
    · exact legal_of_moved ho hbegin hwf hrow hmoved
    · exact ho.legal_of_faulted hf
  | raised hgo he hf =>
    have ho := opened_of_legal hs hgo
    exact legal_of_faulted hf hv hm hbase (by rw [← ho.done, begin_done])

/-! ## The faults -/

/-- The fault is a row of the table of causes that names the state (60_exceptions.md R171). -/
abbrev faultRow (d : DState) (e : SessionError) : Prop :=
  ∃ row ∈ faultRows, e.cause.toNat = row.1 ∧ e.detail.toNat = row.2.1 ∧ d ∈ row.2.2

theorem faultRow_of_headerFault {e : SessionError} (h : headerFault e) : faultRow .blockHdr e := by
  have key : ∀ e ∈ [SessionError.bitsExhausted, .bytesExhausted, .alignedInvalid, .pretreeInvalid, .maintreeInvalid,
      .lentreeInvalid, .runOverflow, .repeatSymbolInvalid, .pretreeEmpty],
      ∃ row ∈ faultRows, e.cause.toNat = row.1 ∧ e.detail.toNat = row.2.1 ∧ DState.blockHdr ∈ row.2.2 := by decide
  exact key e h

theorem faultRow_of_matchFault {d : DState} {e : SessionError} (hd : d = .decVerbatim ∨ d = .decAligned)
    (h : matchFault e) : faultRow d e := by
  have key : ∀ d ∈ [DState.decVerbatim, .decAligned], ∀ e ∈ [SessionError.bitsExhausted, .lentreeEmpty, .matchOverrun,
      .offsetZero, .offsetBeyondWindow, .offsetBeyondHistory],
      ∃ row ∈ faultRows, e.cause.toNat = row.1 ∧ e.detail.toNat = row.2.1 ∧ d ∈ row.2.2 := by decide
  refine key d ?_ e h
  obtain rfl | rfl := hd <;> simp

theorem faultRow_of_frameFault {e : SessionError}
    (h : e ∈ [SessionError.frameHeaderShort, .frameZeroSize, .frameOverTotal, .frameDataShort]) :
    faultRow .frameHdr e := by
  have key : ∀ e ∈ [SessionError.frameHeaderShort, .frameZeroSize, .frameOverTotal, .frameDataShort],
      ∃ row ∈ faultRows, e.cause.toNat = row.1 ∧ e.detail.toNat = row.2.1 ∧ DState.frameHdr ∈ row.2.2 := by decide
  exact key e h

theorem faultRow_blockType {b : BitVec 3} (h1 : b ≠ 1) (h2 : b ≠ 2) (h3 : b ≠ 3) :
    faultRow .blockHdr (.blockType b) := by
  have key : ∀ b : BitVec 3, b ≠ 1 → b ≠ 2 → b ≠ 3 → ∃ row ∈ faultRows,
      (SessionError.blockType b).cause.toNat = row.1 ∧ (SessionError.blockType b).detail.toNat = row.2.1
        ∧ DState.blockHdr ∈ row.2.2 := by decide
  exact key b h1 h2 h3

/-- A row faults by the table, in the state it runs in. -/
theorem faultRow_of_rowFault {v : State} {i : Instr} {e : SessionError} (ho : Opened v)
    (hwf : i.wellFormed v.cfg = true) (hrow : rowAt i v.sess.ds (awaited v)) (he : rowFault i e) :
    faultRow v.sess.ds e := by
  have tree {h : BlockHdr} {p : Pass} {x : Nat} (haw : awaited v = .preSym h p x) (he : headerFault e) :
      faultRow v.sess.ds e := by
    obtain ⟨hds, -⟩ := treeHdrOk_iff.mp (ho.preSym haw).1
    exact hds ▸ faultRow_of_headerFault he
  cases i with
  | contRaw =>
    cases he
    rw [hrow.1]
    decide
  | contCompressed =>
    rw [hrow.1]
    obtain rfl | rfl := he
    · decide
    · decide
  | contBadmagic =>
    cases he
    rw [hrow.1]
    decide
  | frameExt => exact hrow.1 ▸ faultRow_of_frameFault he
  | frameStd => exact hrow.1 ▸ faultRow_of_frameFault he
  | e8On =>
    cases he
    rw [hrow.1]
    decide
  | blkInvalid b =>
    have hwf : (b != 1 && b != 2 && b != 3) = true := hwf
    simp only [Bool.and_eq_true, bne_iff_ne] at hwf
    obtain ⟨⟨h1, h2⟩, h3⟩ := hwf
    rw [hrow.1]
    obtain rfl | rfl := he
    · decide
    · exact faultRow_blockType h1 h2 h3
  | rawCopy | e8Off | mainLiteral | rawByte | oddPad => exact he.elim
  | blkVerbatim | blkAligned | blkUncomp => exact hrow.1 ▸ faultRow_of_headerFault he
  | alignedLens =>
    obtain ⟨h, haw⟩ := hrow
    exact (ho.alignedLens haw).1 ▸ faultRow_of_headerFault he
  | pretree =>
    obtain ⟨h, p, haw⟩ := hrow
    exact (treeHdrOk_iff.mp (ho.pretree haw)).1 ▸ faultRow_of_headerFault he
  | preDelta | preZeroShort | preZeroLong | preRepeat =>
    obtain ⟨h, p, x, haw⟩ := hrow
    exact tree haw he
  | uncompAlignR =>
    obtain ⟨h, haw⟩ := hrow
    exact (ho.uncompAlignR haw).1 ▸ faultRow_of_headerFault he
  | lenFooter =>
    obtain ⟨slot, haw⟩ := hrow
    exact faultRow_of_matchFault (ho.lenFooter haw).1 he
  | alignedSym =>
    obtain ⟨slot, len, haw⟩ := hrow
    obtain ⟨hds, -⟩ := ho.alignedSym haw
    obtain he | rfl := he
    · exact faultRow_of_matchFault (.inr hds) he
    · rw [hds]
      decide
  | _ => exact faultRow_of_matchFault hrow.1 he

/-- A selecting word faults by the table. -/
theorem faultRow_of_selectFault {v : State} {e : SessionError} (ho : Opened v) (he : SelectFault v e) :
    faultRow v.sess.ds e := by
  have key : ∀ d ∈ [DState.streamHdr, .blockHdr, .decVerbatim, .decAligned], ∃ row ∈ faultRows,
      SessionError.bitsExhausted.cause.toNat = row.1 ∧ SessionError.bitsExhausted.detail.toNat = row.2.1
        ∧ d ∈ row.2.2 := by decide
  cases he with
  | headerShort hds =>
    rw [hds]
    decide
  | frameHeaderShort hds => exact hds ▸ faultRow_of_frameFault (by simp)
  | bits hds =>
    refine key _ ?_
    obtain hds | hds | hds | hds := hds <;> rw [hds] <;> simp
  | maintreeEmpty hds =>
    obtain hds | hds := hds
    · rw [hds]
      decide
    · rw [hds]
      decide
  | bytes hds =>
    rw [hds]
    decide
  | pretreeEmpty h p x haw =>
    exact (treeHdrOk_iff.mp (ho.preSym haw).1).1 ▸ faultRow_of_headerFault (by simp [headerFault])
  | pretreeBits h p x haw =>
    exact (treeHdrOk_iff.mp (ho.preSym haw).1).1 ▸ faultRow_of_headerFault (by simp [headerFault])

/-- Settles O33: a fault is one of the row that runs, or of reading its word. -/
theorem faultsByState : Obligations.FaultsByState := by
  unfold Obligations.FaultsByState
  intro s t hs h hno hyes
  have hturn : (atTurn s).failed = false := hno
  have row {d : DState} {e : SessionError} {u : State} (hf : faulted e u t) (hrow : faultRow d e) (hd : s.seen.ds = d) :
      ∃ row ∈ faultRows, t.errCause.toNat = row.1 ∧ t.errDetail.toNat = row.2.1 ∧ s.seen.ds ∈ row.2.2 := by
    unfold faulted at hf
    rw [hf, hd]
    exact hrow
  cases stepCase h with
  | quiet => exact absurd (hno.symm.trans hyes) Bool.false_ne_true
  | reset => cases hyes
  | complete => exact absurd (hno.symm.trans hyes) Bool.false_ne_true
  | host hp a hexec =>
    exact absurd (hturn.symm.trans (hostCase_failed (hostCase (isHost_decodeHost a) hexec) hyes)) Bool.false_ne_true
  | @element u _ w i hgo hw hi hexec =>
    obtain ⟨ho, hbegin, hwf, hrow⟩ := opened_of_selected hs hgo hw hi
    obtain hmoved | ⟨e, he, hf⟩ := exec_moved (hw.not_host hi) hexec
    · have hframe := (moved_frame hmoved).1
      unfold engineFrame at hframe
      rw [hframe] at hyes
      exact absurd (ho.failed.symm.trans hyes) Bool.false_ne_true
    · refine row hf (faultRow_of_rowFault ho hwf hrow he) ?_
      have hseen : u.seen.ds = s.seen.ds := by
        rw [readerOnly_seen hw.readerOnly (begin_pend _), seen_begin]
        rfl
      rw [← hseen, ho.ds]
  | raised hgo he hf =>
    have ho := opened_of_legal hs hgo
    refine row hf (faultRow_of_selectFault ho he) ?_
    rw [← ho.ds, seen_begin]
    rfl

end Sys2Proof.Machine
end

section
/-! SUPPORT. Progress: no piece of an element that runs in its own state is refused, every word that is read stands for a row,
and so every legal state has a next one (70_reset_and_hazards.md R194, R196). -/

namespace Sys2Proof.Machine

/-! ## Pieces that are not refused -/

/-- The piece succeeds or raises a fault. -/
def Res.answers {α : Type} (x : Res α) : Prop :=
  match x with
  | .ok _ _ => True
  | .raise _ _ => True
  | .refuse _ => False

namespace Res

variable {α β : Type}

theorem answers_ok (a : α) (s : State) : (Res.ok a s).answers := trivial

theorem answers_raise (e : SessionError) (d : Nat) : (Res.raise e d : Res α).answers := trivial

theorem answers_of_post {x : Res α} {P : α → State → Prop} {E : SessionError → Prop} (h : x.post P E) : x.answers := by
  cases x with
  | ok a s => trivial
  | raise e d => trivial
  | refuse r => exact h

theorem answers_bind {x : Res α} {f : α → State → Res β} (hx : x.answers)
    (hf : ∀ a s, x = .ok a s → (f a s).answers) : (x.bind f).answers := by
  cases x with
  | ok a s => exact hf a s rfl
  | raise e d => exact answers_raise e d
  | refuse r => exact hx

/-- A check in front of a piece. -/
theorem answers_check {c : Prop} [Decidable c] {e : SessionError} {d : Nat} {x : Res α} (hx : ¬ c → x.answers) :
    (if c then .raise e d else x).answers := by
  split
  · exact answers_raise e d
  · next hc => exact hx hc

end Res

theorem runElement_answers {s : State} {f : State → Res Unit} (h : (f (begin s)).answers) :
    ∃ t, runElement s f = .next t := by
  unfold runElement
  split
  · exact ⟨_, rfl⟩
  · exact ⟨_, rfl⟩
  · next r hr =>
    rw [hr] at h
    exact h.elim

theorem readBits_answers (n : Nat) (s : State) : (readBits n s).answers := Res.answers_of_post (readBits_post n s)

theorem readFields_answers (n k : Nat) (s : State) : (readFields n k s).answers :=
  Res.answers_of_post (readFields_post n k s)

theorem build_answers (tr : Tree) (s : State) : (build tr s).answers := Res.answers_of_post (build_post tr s)

theorem readWord32_answers (s : State) : (readWord32 s).answers := Res.answers_of_post (readWord32_post s)

theorem readByte_answers (s : State) : (readByte s).answers := Res.answers_of_post (readByte_post s)

theorem readBlockLen_answers (s : State) : (readBlockLen s).answers :=
  Res.answers_bind (readBits_answers 16 s) fun _ _ _ => Res.answers_bind (readBits_answers 8 _) fun _ _ _ =>
    Res.answers_ok _ _

/-- The lengths of the trees of an open session are code lengths. -/
theorem Opened.lens_le {v : State} (ho : Opened v) (tr : Tree) : ∀ l ∈ tr.lens v, l ≤ 16 := by
  obtain ⟨h1, h2, h3, h4, -⟩ := sessionShape_iff.mp ho.live
  intro l hl
  cases tr with
  | pre => exact Nat.le_trans (((lensOk_iff ..).mp h4).2 l hl) (by decide)
  | main => exact ((lensOk_iff ..).mp h1).2 l hl
  | len => exact ((lensOk_iff ..).mp h2).2 l hl
  | aligned => exact Nat.le_trans (((lensOk_iff ..).mp h3).2 l hl) (by decide)

/-- A built tree gives a symbol or a fault, also behind reads of the step. -/
theorem decodeSymbol_answers {v u : State} {tr : Tree} (ho : Opened v) (hb : builtLens (tr.lens v) = true)
    (h : readerOnly v u) : (decodeSymbol tr u).answers := by
  have hlens := readerOnly_lens h tr
  exact Res.answers_of_post (decodeSymbol_post tr u (by rwa [hlens]) (by rw [hlens]; exact ho.lens_le tr))

theorem Opened.built_of_inBlock {v : State} (ho : Opened v) (hin : inBlock v.sess) :
    (v.sess.ds ≠ .decUncomp → builtLens v.sess.mainLen = true ∧ builtLens v.sess.lenLen = true)
      ∧ (v.sess.ds = .decAligned → builtLens v.sess.alLen = true) := by
  obtain ⟨hdec, hbr, -⟩ := hin
  obtain ⟨-, htrees, hal⟩ := blockOk_iff.mp ho.block hbr
  constructor
  · intro hne
    refine htrees fun h3 => hne ?_
    rw [h3] at hdec
    exact (Option.some.inj (hdec : some DState.decUncomp = _)).symm
  · intro hds
    obtain ⟨-, h⟩ | ⟨h, -⟩ | ⟨-, h⟩ := decStateOf_eq.mp hdec
    · exact absurd (h.symm.trans hds) nofun
    · exact hal h
    · exact absurd (h.symm.trans hds) nofun

/-! ## Elements -/

theorem frameStartGoto_answers {s : State} (h : s.sess.headerRead = false ∨ s.sess.blockRem = 0
    ∨ s.sess.blockType = 1 ∨ s.sess.blockType = 2 ∨ s.sess.blockType = 3) : (frameStartGoto s).answers := by
  obtain ⟨d, hd, -⟩ := frameStartGoto_ok h
  rw [hd]
  trivial

theorem frameStart_answers {a hl bs fs : Nat} {s : State} (h : s.sess.headerRead = false ∨ s.sess.blockRem = 0
    ∨ s.sess.blockType = 1 ∨ s.sess.blockType = 2 ∨ s.sess.blockType = 3) : (frameStart a hl bs fs s).answers :=
  Res.answers_check fun _ => Res.answers_check fun _ => Res.answers_check fun _ => frameStartGoto_answers h

theorem passContinue_answers (b : BlockHdr) (p : Pass) (x : Nat) (s : State) : (passContinue b p x s).answers := by
  unfold passContinue
  split
  · exact Res.answers_ok _ _
  · cases p with
    | mainLow => exact Res.answers_ok _ _
    | mainHigh => exact Res.answers_bind (build_answers .main s) fun _ _ _ => Res.answers_ok _ _
    | lengths => exact Res.answers_bind (build_answers .len s) fun _ _ _ => Res.answers_ok _ _

theorem zeroRun_answers {n k0 : Nat} {s : State} {b : BlockHdr} {p : Pass} {x : Nat} (haw : awaited s = .preSym b p x) :
    (zeroRun n k0 s).answers := by
  unfold zeroRun
  rw [haw]
  exact Res.answers_bind (readBits_answers n s) fun _ _ _ => Res.answers_check fun _ => passContinue_answers ..

theorem finishMatch_answers (len off : Nat) (r : Word × Word × Word) (s : State) : (finishMatch len off r s).answers := by
  unfold finishMatch
  split
  · exact Res.answers_raise _ _
  · exact Res.answers_ok _ _

theorem matchOffset_answers (slot len : Nat) (s : State) : (matchOffset slot len s).answers := by
  unfold matchOffset
  split
  · exact finishMatch_answers ..
  · split
    · exact finishMatch_answers ..
    · split
      · exact finishMatch_answers ..
      · split
        · exact Res.answers_ok _ _
        · exact Res.answers_bind (readBits_answers _ s) fun _ _ _ => finishMatch_answers ..

theorem matchSymbol_answers (slot : Nat) (lh : BitVec 3) (s : State) : (matchSymbol slot lh s).answers := by
  by_cases h7 : lh = 7
  · rw [h7, matchSymbol_of_eq]
    exact Res.answers_ok _ _
  · rw [matchSymbol_of_ne h7]
    exact matchOffset_answers ..

theorem exec_match_answers {i : Instr} {slot : Nat} {lh : BitVec 3} {s : State}
    (hexec : exec i s = runElement s (matchSymbol slot lh)) : ∃ t, exec i s = .next t := by
  rw [hexec]
  exact runElement_answers (matchSymbol_answers ..)

/-- The block headers: the length is read, and what follows it is not refused. -/
theorem blockHeader_answers {s : State} {f : Nat → State → Res Unit} (h : ∀ n u, (f n u).answers) :
    ∃ t, runElement s (fun s => (readBlockLen s).bind f) = .next t :=
  runElement_answers (Res.answers_bind (readBlockLen_answers _) fun n u _ => h n u)

/-- A block under way at a frame header has a type (10_state.md R38). -/
theorem Opened.frameBlock {v : State} (ho : Opened v) : v.sess.headerRead = false ∨ v.sess.blockRem = 0
    ∨ v.sess.blockType = 1 ∨ v.sess.blockType = 2 ∨ v.sess.blockType = 3 := by
  by_cases h0 : v.sess.blockRem = 0
  · exact .inr (.inl h0)
  · obtain ⟨htype, -⟩ := blockOk_iff.mp ho.block h0
    exact .inr (.inr htype)

/-- An element that runs in its own state has a next state. -/
theorem exec_answers {v : State} {i : Instr} (ho : Opened v) (hbegin : begin v = v)
    (hrow : rowAt i v.sess.ds (awaited v)) (hhost : isHost i = false) : ∃ t, exec i v = .next t := by
  have hread {n x : Nat} {u : State} (h : readBits n v = .ok x u) : readerOnly v u := readBits_ok_readerOnly h
  cases i with
  | contRaw platform version flags =>
    obtain hover | hfit := Nat.lt_or_ge v.cfg.outCap (v.inLen - 10)
    · obtain ⟨t, ht, -⟩ := exec_contRaw_over platform version flags hover
      exact ⟨t, ht⟩
    · exact ⟨_, exec_contRaw_ok platform version flags hfit⟩
  | contCompressed platform version flags =>
    obtain hshort | hlen := Nat.lt_or_ge v.inLen 14
    · obtain ⟨t, ht, -⟩ := exec_contCompressed_short platform version flags hshort
      exact ⟨t, ht⟩
    · obtain hover | hfit := Nat.lt_or_ge v.cfg.outCap (declaredSize platform version flags v).1.toNat
      · obtain ⟨t, ht, -⟩ := exec_contCompressed_over platform version flags hlen hover
        exact ⟨t, ht⟩
      · exact ⟨_, exec_contCompressed_ok platform version flags hlen hfit⟩
  | contBadmagic magic =>
    obtain ⟨t, ht, -⟩ := exec_contBadmagic magic v
    exact ⟨t, ht⟩
  | rawCopy => exact ⟨_, exec_rawCopy v⟩
  | frameStd h0 =>
    obtain hshort | hlen := Nat.lt_or_ge v.inLen (v.sess.inPos + 2)
    · obtain ⟨t, ht, -⟩ := exec_frameStd_short hshort h0
      exact ⟨t, ht⟩
    · obtain ⟨u, hd, hexec⟩ := exec_frameStd hlen h0
      rw [hexec]
      refine runElement_answers (frameStart_answers ?_)
      rw [hbegin] at hd
      rw [drawsOnly_sess hd]
      exact ho.frameBlock
  | frameExt =>
    obtain hshort | hlen := Nat.lt_or_ge v.inLen (v.sess.inPos + 5)
    · obtain ⟨t, ht, -⟩ := exec_frameExt_short hshort
      exact ⟨t, ht⟩
    · obtain ⟨u, hd, hexec⟩ := exec_frameExt hlen
      rw [hexec]
      refine runElement_answers (frameStart_answers ?_)
      rw [hbegin] at hd
      rw [drawsOnly_sess hd]
      exact ho.frameBlock
  | e8Off => exact ⟨_, exec_e8Off v⟩
  | e8On =>
    show ∃ t, execE8On v = _
    exact runElement_answers (Res.answers_bind (readBits_answers 16 _) fun _ _ _ =>
      Res.answers_bind (readBits_answers 16 _) fun _ _ _ => Res.answers_ok _ _)
  | blkVerbatim => exact blockHeader_answers fun _ _ => Res.answers_ok _ _
  | blkAligned => exact blockHeader_answers fun _ _ => Res.answers_ok _ _
  | blkUncomp => exact blockHeader_answers fun _ _ => Res.answers_ok _ _
  | blkInvalid b => exact blockHeader_answers fun _ _ => Res.answers_raise _ _
  | alignedLens =>
    obtain ⟨b, haw⟩ := hrow
    show ∃ t, execAlignedLens v = _
    refine runElement_answers ?_
    rw [hbegin]
    simp only [haw]
    exact Res.answers_bind (readFields_answers ..) fun _ _ _ => Res.answers_bind (build_answers ..) fun _ _ _ =>
      Res.answers_ok _ _
  | pretree =>
    obtain ⟨b, p, haw⟩ := hrow
    show ∃ t, execPretree v = _
    refine runElement_answers ?_
    rw [hbegin]
    simp only [haw]
    exact Res.answers_bind (readFields_answers ..) fun _ _ _ => Res.answers_bind (build_answers ..) fun _ _ _ =>
      passContinue_answers ..
  | preDelta z =>
    obtain ⟨b, p, x, haw⟩ := hrow
    show ∃ t, execPreDelta z v = _
    refine runElement_answers ?_
    rw [hbegin]
    simp only [haw]
    exact passContinue_answers ..
  | preZeroShort =>
    obtain ⟨b, p, x, haw⟩ := hrow
    exact runElement_answers (zeroRun_answers (by rw [hbegin]; exact haw))
  | preZeroLong =>
    obtain ⟨b, p, x, haw⟩ := hrow
    exact runElement_answers (zeroRun_answers (by rw [hbegin]; exact haw))
  | preRepeat =>
    obtain ⟨b, p, x, haw⟩ := hrow
    show ∃ t, execPreRepeat v = _
    refine runElement_answers ?_
    rw [hbegin]
    simp only [haw]
    exact Res.answers_bind (readBits_answers 1 v) fun _ u hu => Res.answers_check fun _ =>
      Res.answers_bind (decodeSymbol_answers (tr := .pre) ho (ho.preSym haw).2 (hread hu)) fun _ _ _ =>
        Res.answers_check fun _ => passContinue_answers ..
  | mainLiteral b => exact ⟨_, exec_mainLiteral b v⟩
  | rawByte b => exact ⟨_, exec_rawByte b v⟩
  | matchR0 lh | matchR1 lh | matchR2 lh | matchS3 lh | matchS4 lh | matchS5 lh | matchS6 lh | matchS7 lh | matchS8 lh
  | matchS9 lh | matchS10 lh | matchS11 lh | matchS12 lh | matchS13 lh | matchS14 lh | matchS15 lh | matchS16 lh
  | matchS17 lh | matchS18 lh | matchS19 lh | matchS20 lh | matchS21 lh | matchS22 lh | matchS23 lh | matchS24 lh
  | matchS25 lh | matchS26 lh | matchS27 lh | matchS28 lh | matchS29 lh | matchS30 lh | matchS31 lh | matchS32 lh
  | matchS33 lh | matchS34 lh | matchS35 lh => exact exec_match_answers (lh := lh) rfl
  | lenFooter =>
    obtain ⟨slot, haw⟩ := hrow
    obtain ⟨hds, hok, -⟩ := ho.lenFooter haw
    have hin := (stateOk_dec (hds.imp_right .inl)).mp hok
    have hne : v.sess.ds ≠ .decUncomp := by
      obtain h | h := hds <;> rw [h] <;> decide
    show ∃ t, execLenFooter v = _
    refine runElement_answers ?_
    rw [hbegin]
    simp only [haw]
    exact Res.answers_bind (decodeSymbol_answers (tr := .len) ho ((ho.built_of_inBlock hin).1 hne).2 (readerOnly_refl v))
      fun _ _ _ => matchOffset_answers ..
  | alignedSym =>
    obtain ⟨slot, len, haw⟩ := hrow
    obtain ⟨hds, hok, -⟩ := ho.alignedSym haw
    have hin := (stateOk_dec (.inr (.inl hds))).mp hok
    show ∃ t, execAlignedSym v = _
    refine runElement_answers ?_
    rw [hbegin]
    simp only [haw]
    exact Res.answers_bind (readBits_answers _ v) fun _ u hu =>
      Res.answers_bind (decodeSymbol_answers (tr := .aligned) ho ((ho.built_of_inBlock hin).2 hds) (hread hu))
        fun _ _ _ => finishMatch_answers ..
  | uncompAlignR =>
    obtain ⟨b, haw⟩ := hrow
    show ∃ t, execUncompAlignR v = _
    refine runElement_answers ?_
    rw [hbegin]
    simp only [haw]
    exact Res.answers_bind (readWord32_answers _) fun _ _ _ => Res.answers_bind (readWord32_answers _) fun _ _ _ =>
      Res.answers_bind (readWord32_answers _) fun _ _ _ => Res.answers_ok _ _
  | oddPad => exact ⟨_, exec_oddPad hrow⟩
  | csrRead | csrWrite | start | softReset | irqEn | w1c | inLen | inWrite | inRead | outRead | outWrite | busError =>
    cases hhost

/-- A host access always has a next state. -/
theorem exec_host_answers {i : Instr} (hhost : isHost i = true) (s : State) : ∃ t, exec i s = .next t := by
  have guarded {c : Prop} [Decidable c] {u : State} : ∃ t,
      (if c then .next u else .next (busErrorResp s) : Host.Outcome State Fault Refusal) = .next t := by
    split
    · exact ⟨_, rfl⟩
    · exact ⟨_, rfl⟩
  cases i with
  | csrRead | csrWrite | inWrite | inRead | outRead => exact guarded
  | start | softReset | irqEn | w1c | inLen | outWrite | busError => exact ⟨_, rfl⟩
  | _ => cases hhost

end Sys2Proof.Machine
end

section
/-! SUPPORT. Every legal state has a next one, and every step keeps the history of the window (70_reset_and_hazards.md R196,
10_state.md R45). -/

namespace Sys2Proof.Machine

/-! ## Fetching is not refused -/

theorem fetchContainer_answers (s : State) : (fetchContainer s).answers := by
  refine Res.answers_check fun _ => ?_
  dsimp only
  split
  · trivial
  · exact Res.answers_check fun _ => trivial

/-- In an open state the engine finds a word to read, and reading it is not refused. -/
theorem selector_answers {s : State} (ho : Opened (begin s)) (hstarted : ∀ p, s.pend = some p → p.ctx ≠ .started) :
    ∃ r, selector s = some r ∧ r.answers := by
  unfold selector
  cases hp : s.pend with
  | some p =>
    have haw : awaited (begin s) = p.ctx := by rw [awaited_begin, awaited, hp]
    rw [begin_of_some hp] at ho haw
    simp only
    cases hc : p.ctx with
    | started => exact absurd hc (hstarted p hp)
    | preSym b q x =>
      rw [hc] at haw
      exact ⟨_, rfl, Res.answers_bind (decodeSymbol_answers (tr := .pre) ho (ho.preSym haw).2 (readerOnly_refl s))
        fun _ _ _ => trivial⟩
    | alignedLens | pretree | lenFooter | alignedSym | uncompAlignR | oddPad => exact ⟨_, rfl, trivial⟩
  | none =>
    have haw : awaited (begin s) = .started := by rw [awaited_begin, awaited, hp]
    have hok := ho.state haw
    simp only [fetchByState]
    cases hds : (begin s).sess.ds with
    | idle | done | failed =>
      rw [stateOk, hds] at hok
      cases hok
    | container => exact ⟨_, rfl, fetchContainer_answers _⟩
    | rawCopy => exact ⟨_, rfl, trivial⟩
    | frameHdr => exact ⟨_, rfl, Res.answers_check fun _ => trivial⟩
    | streamHdr => exact ⟨_, rfl, Res.answers_bind (readBits_answers 1 _) fun _ _ _ => trivial⟩
    | blockHdr => exact ⟨_, rfl, Res.answers_bind (readBits_answers 3 _) fun _ _ _ => trivial⟩
    | decVerbatim | decAligned =>
      have hin := (stateOk_dec (by rw [hds]; simp)).mp hok
      have hb := ((ho.built_of_inBlock hin).1 (by rw [hds]; decide)).1
      exact ⟨_, rfl, Res.answers_bind (decodeSymbol_answers (tr := .main) ho hb (readerOnly_refl _)) fun _ _ _ => trivial⟩
    | decUncomp => exact ⟨_, rfl, Res.answers_bind (readByte_answers _) fun _ _ _ => trivial⟩

/-- A step in progress awaits an element. -/
theorem ctx_ne_started {s : State} (h : legal s = true) {p : Pending} (hp : s.pend = some p) : p.ctx ≠ .started := by
  obtain ⟨-, -, -, hst, hok⟩ := legal_iff.mp h
  obtain ⟨-, -, hpb⟩ := statusOk_iff.mp hst
  have hbusy : s.busy = true := hpb (by rw [hp]; exact Option.some_ne_none p)
  simp only [liveOk, hbusy, hp, Bool.not_true, Bool.false_or, Bool.and_eq_true] at hok
  intro hc
  rw [hc] at hok
  exact absurd hok.2 Bool.false_ne_true

/-! ## Every word stands for a row -/

theorem mainElements_le {p : Params} (h : p.valid = true) : p.numPositionSlots ≤ 36 ∧ p.mainElements ≤ 544 := by
  simp only [Params.valid, Bool.and_eq_true, decide_eq_true_eq] at h
  simp only [Params.mainElements, Params.numPositionSlots]
  omega

theorem decodeMain_ok {p : Params} (hv : p.valid = true) {m : BitVec 10} (h : m.toNat < p.mainElements) :
    ∃ i, decodeMain m = .ok i := by
  unfold decodeMain
  split
  · exact ⟨_, rfl⟩
  · have hslots := mainElements_le hv
    obtain ⟨i, hi⟩ := ofSlot_of_lt (slot := (m.toNat - 256) / 8) (by omega) (m.extractLsb' 0 3)
    exact ⟨i, by rw [hi]⟩

theorem decodePre_ok {z : BitVec 5} (h : z.toNat < 20) : ∃ i, decodePre z = .ok i := by
  have key : ∀ z : BitVec 5, z.toNat < 20 → z.toNat ≤ 16 ∨ z = 17 ∨ z = 18 ∨ z = 19 := by decide
  unfold decodePre
  split
  · exact ⟨_, rfl⟩
  · next h16 =>
    obtain h' | rfl | rfl | rfl := key z h
    · exact absurd h' h16
    · exact ⟨_, rfl⟩
    · exact ⟨_, rfl⟩
    · exact ⟨_, rfl⟩

/-- A word the engine reads in an open state selects a well-formed row. -/
theorem Selected.instr {v t : State} {w : Fetched} (ho : Opened v) (h : Selected v w t) : ∃ i, instrOf v.cfg w = some i := by
  obtain ⟨hmain, -, -, hpre, -⟩ := sessionShape_iff.mp ho.live
  have hlen := ((lensOk_iff ..).mp hmain).1
  have hle := (mainElements_le ho.valid).2
  have hsym {m : Nat} (hm : m < v.sess.mainLen.length) : (BitVec.ofNat 10 m).toNat < v.cfg.mainElements := by
    rw [BitVec.toNat_ofNat, Nat.mod_eq_of_lt (by omega), ← hlen]
    exact hm
  have row (hm : ∀ m, w = .mainSym m → m.toNat < v.cfg.mainElements)
      (hc : ∀ x, w = .container x → x.extractLsb' 24 24 ≠ v.cfg.magicWord → x.extractLsb' 0 24 = 0)
      (hd : ∃ i, decode v.cfg w = .ok i) : ∃ i, instrOf v.cfg w = some i := by
    obtain ⟨i, hi⟩ := hd
    exact ⟨i, instrOf_eq_some.mpr ⟨hi, (decodedWords v.cfg w i hm hc hi).1⟩⟩
  cases h with
  | badMagic magic _ _ hne _ =>
    refine row nofun (fun x hx _ => ?_) ⟨_, rfl⟩
    cases hx
    rw [BitVec.extractLsb'_append_eq_of_add_le (by decide), BitVec.extractLsb'_eq_self]
    rfl
  | container platform version flags =>
    refine row nofun (fun x hx hne => ?_) ⟨_, rfl⟩
    cases hx
    exact absurd (extractLsb'_container ..).1 hne
  | frame h0 =>
    refine row nofun nofun ?_
    simp only [decode]
    split
    · exact ⟨_, rfl⟩
    · exact ⟨_, rfl⟩
  | stream x =>
    refine row nofun nofun ?_
    simp only [decode]
    split
    · exact ⟨_, rfl⟩
    · exact ⟨_, rfl⟩
  | mainSym m _ _ hm =>
    refine row (fun x hx => ?_) nofun (decodeMain_ok ho.valid (hsym hm))
    cases hx
    exact hsym hm
  | preSym b p x z _ hz =>
    refine row nofun nofun (decodePre_ok ?_)
    have hlen : v.sess.preLen.length = 20 := ((lensOk_iff ..).mp hpre).1
    rw [BitVec.toNat_ofNat, Nat.mod_eq_of_lt (by omega)]
    omega
  | block | rawPayload | rawByte | alignedLens | pretree | lenFooter | alignedSym | uncompBody | oddPad =>
    exact row nofun nofun ⟨_, rfl⟩

/-- Settles O8, by the kind of the turn. -/
theorem legalStepAnswersNext : Obligations.LegalStepAnswersNext := by
  unfold Obligations.LegalStepAnswersNext
  intro s hs
  obtain ⟨hv, -⟩ := legal_iff.mp hs
  have hcase := fetchCase s
  generalize hf : fetch s = f at hcase
  cases hcase with
  | quiet => exact ⟨_, step_of_quiet hv hf⟩
  | reset => exact ⟨_, step_of_reset hv hf⟩
  | complete => exact ⟨_, step_of_complete hv hf⟩
  | host hp a =>
    obtain ⟨t, ht⟩ := exec_host_answers (isHost_decodeHost a) (atTurn s)
    exact ⟨t, (step_of_element hv hf (instrOf_eq_some.mpr ⟨rfl, decodeHost_wellFormed _ a⟩)).trans ht⟩
  | engine hgo =>
    have hbusy (hp : s.pend = none) : s.busy = true := (hgo hp).1
    have ho := opened_of_legal hs hbusy
    obtain ⟨r, hr, hans⟩ := selector_answers ho fun p hp => ctx_ne_started hs hp
    obtain ⟨w, u, hw, hsel⟩ | ⟨e, d, he, -⟩ | ⟨k, -, hk⟩ | ⟨-, hk⟩ :=
      turnedOf_cases (s := atTurn s) fun x hx => selector_within hx
    · obtain ⟨i, hi⟩ := hsel.instr ho
      rw [← readerOnly_cfg hsel.readerOnly] at hi
      obtain ⟨hou, hbegin, -, hrow⟩ := opened_of_selected hs hbusy hsel hi
      obtain ⟨t, ht⟩ := exec_answers hou hbegin hrow (hsel.not_host hi)
      exact ⟨t, (step_of_element hv (hf.trans hw) hi).trans ht⟩
    · exact ⟨_, step_of_raised hv (hf.trans he)⟩
    · rw [hr] at hk
      cases hk
      exact hans.elim
    · rw [hr] at hk
      cases hk

/-! ## The history of the window -/

theorem sessionHistory_congr {p : Params} {t t' : Session} (hwin : t'.win = t.win) (hpos : t'.wpos = t.wpos)
    (hwr : t'.written = t.written) (h : sessionHistory p t) : sessionHistory p t' := by
  unfold sessionHistory at *
  rwa [hwin, hpos, hwr]

/-- A session without history keeps the law (70_reset_and_hazards.md R188). -/
theorem sessionHistory_of_written_zero {p : Params} {t : Session} (hpos : t.wpos = 0) (hwr : t.written = 0) :
    sessionHistory p t := by
  refine ⟨by rw [hpos]; exact windowSize_pos p, by rw [hwr]; exact Nat.zero_le _, fun j hj => ?_⟩
  rw [hwr] at hj
  exact absurd hj (Nat.not_lt_zero j)

theorem historyOk_iff {s : State} : historyOk s ↔ sessionHistory s.cfg s.sess ∧ sessionHistory s.cfg s.seen := by
  unfold historyOk
  refine and_congr_right fun hlive => ?_
  cases hp : s.pend with
  | none =>
    rw [seen_of_none hp]
    exact ⟨fun _ => hlive, fun _ => nofun⟩
  | some p =>
    rw [seen_of_some hp]
    exact ⟨fun h => h p rfl, fun h q hq => Option.some.inj hq ▸ h⟩

/-- The window of a session and its counters are as they were. -/
def windowKept (s t : Session) : Prop := t.win = s.win ∧ t.wpos = s.wpos ∧ t.written = s.written

theorem sessionHistory_of_windowKept {p : Params} {s t : Session} (h : windowKept s t) (hs : sessionHistory p s) :
    sessionHistory p t := sessionHistory_congr h.1 h.2.1 h.2.2 hs

theorem afterElement_windowKept (s : State) : windowKept s.sess (afterElement s).sess := by
  rw [afterElement_eq]
  exact ⟨rfl, rfl, rfl⟩

theorem account_windowKept (k : Nat) (s : State) : windowKept s.sess (account k s).sess := by
  obtain ⟨-, -, -, -, heq⟩ | ⟨-, -, -, heq⟩ | ⟨-, heq⟩ := account_cases k s
  · rw [heq]
    exact ⟨rfl, rfl, rfl⟩
  · rw [heq]
    exact afterElement_windowKept _
  · rw [heq]
    exact afterElement_windowKept _

theorem passContinue_windowKept {b : BlockHdr} {p : Pass} {x : Nat} {s t : State} (h : passContinue b p x s = .ok () t) :
    windowKept s.sess t.sess := by
  obtain ⟨-, rfl⟩ | ⟨-, rfl⟩ | ⟨-, -, rfl⟩ | ⟨-, -, rfl⟩ := passContinue_cases h
  · exact ⟨rfl, rfl, rfl⟩
  · exact ⟨rfl, rfl, rfl⟩
  · exact ⟨rfl, rfl, rfl⟩
  · rw [headerTail_eq]
    exact ⟨rfl, rfl, rfl⟩

/-- A copy keeps the history law, emit by emit. -/
theorem sessionHistory_copyMatch (n off : Nat) {s : State} (h : sessionHistory s.cfg s.sess) :
    sessionHistory s.cfg (copyMatch n off s).sess := by
  induction n generalizing s with
  | zero => exact h
  | succ n ih =>
    have hd := readCell_drawsOnly s s.sess.win (windowIndex s.sess.wpos off s.cfg.windowSize)
    rw [copyMatch]
    generalize s.readCell s.sess.win (windowIndex s.sess.wpos off s.cfg.windowSize) = r at hd ⊢
    have hr : sessionHistory r.2.cfg r.2.sess := by rw [drawsOnly_cfg hd, drawsOnly_sess hd]; exact h
    have := ih (sessionHistory_emit r.1 hr)
    rwa [emit_cfg, drawsOnly_cfg hd] at this

/-- Every effect keeps the history of the live session: only emits write the window. -/
theorem Effect.history {v t : State} {i : Instr} (he : Effect v i t) (h : sessionHistory v.cfg v.sess) :
    sessionHistory v.cfg t.sess := by
  cases he with
  | frame a hl bs fs _ _ _ _ _ hstart =>
    obtain ⟨heq, -⟩ := hstart
    rw [heq]
    exact h
  | pretree b q ls _ _ _ hpass =>
    exact sessionHistory_of_windowKept
      (passContinue_windowKept (s := v.setSess { v.sess with preLen := ls }) hpass) h
  | run b q x k n _ _ hpass =>
    refine sessionHistory_of_windowKept (passContinue_windowKept hpass) ?_
    cases q <;> exact h
  | uncompAlignR b r0 r1 r2 =>
    rw [headerTail_eq]
    exact h
  | emitted b => exact sessionHistory_of_windowKept (account_windowKept 1 _) (sessionHistory_emit b h)
  | matched len off r =>
    exact sessionHistory_of_windowKept (account_windowKept len _) (sessionHistory_copyMatch len off h)
  | oddPad => exact sessionHistory_of_windowKept (afterElement_windowKept _) h
  | contRaw | contCompressed | rawCopy | e8 | blkVerbatim | blkAligned | blkUncomp | alignedLens | lenFooter
  | alignedFooter => exact h

theorem historyOk_of_moved {s t : State} {i : Instr} (hs : historyOk s) (h : moved i s t) : historyOk t := by
  have hframe := moved_frame h
  obtain ⟨v, hread, he⟩ := h
  obtain ⟨hlive, hseen⟩ := historyOk_iff.mp hs
  have hcfg : v.cfg = s.cfg := (readerOnly_cfg hread.1).trans (begin_cfg s)
  have hv : sessionHistory v.cfg v.sess := by
    rw [hcfg, readerOnly_sess hread.1, begin_sess]
    exact hlive
  have ht := he.history hv
  have hcfg' : t.cfg = s.cfg := (engineFrame_hostSideKept hframe.1).1
  rw [hcfg, ← hcfg'] at ht
  refine historyOk_iff.mpr ⟨ht, ?_⟩
  by_cases hp : t.pend = none
  · rwa [seen_of_none hp]
  · rw [(hframe.2 hp).2, hcfg']
    exact hseen

theorem historyOk_of_faulted {e : SessionError} {s t : State} (hs : historyOk s) (h : faulted e s t) : historyOk t := by
  obtain ⟨-, hseen⟩ := historyOk_iff.mp hs
  unfold faulted at h
  rw [h]
  exact historyOk_iff.mpr ⟨hseen, hseen⟩

/-- Settles O9: resets and START leave no history, the engine writes the window by emits alone. -/
theorem historyKept : Obligations.HistoryKept := by
  unfold Obligations.HistoryKept
  intro s t hs hhist h
  have hturn : historyOk (atTurn s) := hhist
  obtain ⟨hlive, hseen⟩ := historyOk_iff.mp hhist
  cases stepCase h with
  | quiet => exact hturn
  | reset =>
    have h0 := sessionHistory_of_written_zero (p := s.cfg) (t := Session.reset s.cfg) rfl rfl
    exact historyOk_iff.mpr ⟨h0, h0⟩
  | complete => exact historyOk_iff.mpr ⟨hlive, hlive⟩
  | host hp a hexec =>
    cases hostCase (isHost_decodeHost a) hexec with
    | softReset r =>
      have h0 := sessionHistory_of_written_zero (p := s.cfg) (t := Session.reset s.cfg) rfl rfl
      exact historyOk_iff.mpr ⟨h0, h0⟩
    | start irqEn hb r =>
      have h0 := sessionHistory_of_written_zero (p := s.cfg) (t := freshSession s.cfg) rfl rfl
      exact historyOk_iff.mpr ⟨h0, h0⟩
    | other h =>
      rw [h.frame]
      exact hturn
  | @element u _ w i hgo hw hi hexec =>
    have hu : historyOk u := by
      have hread := hw.readerOnly
      rw [historyOk_iff, readerOnly_cfg hread, readerOnly_seen hread (begin_pend _), seen_begin, readerOnly_sess hread,
        begin_sess, begin_cfg]
      exact ⟨hlive, hseen⟩
    obtain hmoved | ⟨e, -, hf⟩ := exec_moved (hw.not_host hi) hexec
    · exact historyOk_of_moved hu hmoved
    · exact historyOk_of_faulted hu hf
  | raised hgo he hf => exact historyOk_of_faulted hturn hf

end Sys2Proof.Machine
end

section
/-! SUPPORT. With UNCOMP_ODD_PAD = 1 the cursor is even outside the data of an Uncompressed block (20_memory.md R54,
41_bit_reader.md R98, R100): the law from step to step, and how the last byte and the pad byte of a block move the cursor. -/

namespace Sys2Proof.Machine

/-! ## Sessions outside an Uncompressed block -/

/-- No Uncompressed block is under way and the cursor is even. -/
def quietReader (t : Session) : Prop := t.rdC % 2 = 0 ∧ (t.blockType = 3 → t.blockRem = 0)

theorem cursorEven_of_quietReader {t : Session} (h : quietReader t) : cursorEven t :=
  ⟨fun hodd => absurd (h.1.symm.trans hodd) (by decide), fun h3 hne => absurd (h.2 h3) hne⟩

/-- A session that leaves the engine's running states keeps the law. -/
theorem cursorEven_of_ds {t : Session} {d : DState} (hd : d ≠ .frameHdr) (h : cursorEven t) :
    cursorEven { t with ds := d } := by
  obtain ⟨h1, h2⟩ := h
  refine ⟨h1, fun h3 hne => ?_⟩
  obtain ⟨hle, -, hpar⟩ := h2 h3 hne
  exact ⟨hle, fun h => absurd h hd, hpar⟩

/-- Outside frame headers and Uncompressed blocks, the open state is quiet. -/
theorem Opened.quietReader {v : State} (ho : Opened v) (hframe : v.sess.ds ≠ .frameHdr) (hun : v.sess.ds ≠ .decUncomp)
    (hc : cursorEven v.sess) : Machine.quietReader v.sess := by
  have hrem : v.sess.blockType = 3 → v.sess.blockRem = 0 := by
    have ofState (hok : stateOk v.sess = true) : v.sess.blockType = 3 → v.sess.blockRem = 0 := by
      have block (hds : v.sess.ds = .decVerbatim ∨ v.sess.ds = .decAligned ∨ v.sess.ds = .decUncomp) :
          v.sess.blockType = 3 → v.sess.blockRem = 0 := by
        obtain ⟨hdec, -⟩ := (stateOk_dec hds).mp hok
        intro h3
        rw [h3] at hdec
        exact absurd (Option.some.inj (hdec : some DState.decUncomp = _)).symm hun
      intro h3
      cases hds : v.sess.ds with
      | idle | done | failed =>
        rw [stateOk, hds] at hok
        exact absurd hok Bool.false_ne_true
      | container => exact ((stateOk_container hds).mp hok).1
      | rawCopy => exact ((stateOk_rawCopy hds).mp hok).1
      | frameHdr => exact absurd hds hframe
      | streamHdr => exact ((stateOk_streamHdr hds).mp hok).1
      | blockHdr => exact ((stateOk_blockHdr hds).mp hok).1
      | decVerbatim => exact block (.inl hds) h3
      | decAligned => exact block (.inr (.inl hds)) h3
      | decUncomp => exact absurd hds hun
    cases haw : awaited v with
    | started => exact ofState (ho.state haw)
    | alignedLens h => exact fun _ => (ho.alignedLens haw).2.1.1
    | pretree h p => exact fun _ => (treeHdrOk_iff.mp (ho.pretree haw)).2.1.1
    | preSym h p x => exact fun _ => (treeHdrOk_iff.mp (ho.preSym haw).1).2.1.1
    | lenFooter slot => exact ofState (ho.lenFooter haw).2.1
    | alignedSym slot len => exact ofState (ho.alignedSym haw).2.1
    | uncompAlignR h => exact fun _ => (ho.uncompAlignR haw).2.1.1
    | oddPad => exact absurd (ho.oddPad haw).1 hun
  refine ⟨?_, hrem⟩
  obtain h | h := Nat.mod_two_eq_zero_or_one v.sess.rdC
  · exact h
  · obtain ⟨h3, hne⟩ := hc.1 h
    exact absurd (hrem h3) hne

/-- Reads keep a session quiet. -/
theorem quietReader_readOn {n : Nat} {s t : State} (h : quietReader s.sess) (hread : readOn n s t) :
    quietReader t.sess := by
  obtain ⟨hr, heven, -⟩ := hread
  refine ⟨heven h.1, ?_⟩
  rw [readerOnly_sess hr]
  exact h.2

/-- Outside an Uncompressed block a selecting word is read bit by bit. -/
theorem Selected.readOn {v t : State} {w : Fetched} (h : Selected v w t) (hun : v.sess.ds ≠ .decUncomp) :
    Machine.readOn 0 v t := by
  cases h with
  | badMagic _ _ _ _ hd => exact readOn_of_drawsOnly hd
  | container _ _ _ _ _ hd => exact readOn_of_drawsOnly hd
  | frame _ _ _ hd => exact readOn_of_drawsOnly hd
  | stream _ _ _ hr => exact readOn_mono hr (Nat.zero_le _)
  | block _ _ _ hr => exact readOn_mono hr (Nat.zero_le _)
  | mainSym _ _ _ _ hr => exact readOn_mono hr (Nat.zero_le _)
  | preSym _ _ _ _ _ _ hr => exact readOn_mono hr (Nat.zero_le _)
  | rawByte _ hds => exact absurd hds hun
  | rawPayload | alignedLens | pretree | lenFooter | alignedSym | uncompBody | oddPad => exact readOn_refl v

/-! ## The effects outside an Uncompressed block -/

/-- The law of a session that an element leaves, committed or open. -/
def cursorLeft (t : State) : Prop :=
  (awaited t ≠ .oddPad → cursorEven t.sess)
    ∧ (awaited t = .oddPad → t.sess.blockLen ≤ t.sess.frameSize - t.sess.frameRem → t.sess.rdC % 2 = 1)

theorem awaited_of_none {s : State} (h : s.pend = none) : awaited s = .started := by rw [awaited, h]

theorem awaited_await (c : Ctx) (s : State) : awaited (await c s) = c := rfl

theorem cursorLeft_of_even {t : State} (haw : awaited t ≠ .oddPad) (h : cursorEven t.sess) : cursorLeft t :=
  ⟨fun _ => h, fun h => absurd h haw⟩

theorem cursorLeft_of_quietReader {t : State} (haw : awaited t ≠ .oddPad) (h : quietReader t.sess) : cursorLeft t :=
  cursorLeft_of_even haw (cursorEven_of_quietReader h)

theorem cursorLeft_commit {t : State} (hp : t.pend = none) (h : cursorEven t.sess) : cursorLeft t :=
  cursorLeft_of_even (by rw [awaited_of_none hp]; exact nofun) h

/-- A header ends: its block, if Uncompressed, begins at an even cursor. -/
theorem cursorLeft_headerTail {b : BlockHdr} {d : DState} {s : State} (heven : s.sess.rdC % 2 = 0) (hd : d ≠ .frameHdr)
    (hodd : s.cfg.oddPad = true) : cursorLeft (headerTail b d s) := by
  refine cursorLeft_commit (headerTail_frame b d s).2 ?_
  have hre := reinit_even hodd
  rw [headerTail_eq]
  have hrd : (if b.len = 0 ∧ b.type = 3 then (reinit s).sess.rdC else s.sess.rdC) % 2 = 0 := by
    split
    · exact hre
    · exact heven
  refine ⟨fun h => absurd (hrd.symm.trans h) (by decide), fun _ hne => ⟨Nat.le_refl _, fun hf => ?_, fun _ => ?_⟩⟩
  · dsimp only at hf hne
    rw [if_neg hne] at hf
    exact absurd hf hd
  · rw [hrd]
    dsimp only
    omega

theorem cursorLeft_passContinue {b : BlockHdr} {p : Pass} {x : Nat} {s t : State} (hq : quietReader s.sess)
    (hodd : s.cfg.oddPad = true) (h : passContinue b p x s = .ok () t) : cursorLeft t := by
  obtain ⟨-, rfl⟩ | ⟨-, rfl⟩ | ⟨-, -, rfl⟩ | ⟨-, -, rfl⟩ := passContinue_cases h
  · exact cursorLeft_of_quietReader (by rw [awaited_await]; exact nofun) hq
  · exact cursorLeft_of_quietReader (by rw [awaited_await]; exact nofun) hq
  · exact cursorLeft_of_quietReader (by rw [awaited_await]; exact nofun) hq
  · refine cursorLeft_headerTail hq.1 ?_ hodd
    unfold treeDecState
    split <;> decide

/-- The end of a step behind its output, the cursor even: nothing else of the law can fail. -/
theorem cursorLeft_afterElement {s : State} (hq : quietReader s.sess) : cursorLeft (afterElement s) := by
  refine cursorLeft_commit (afterElement_frame s).2 (cursorEven_of_quietReader ?_)
  rw [afterElement_eq]
  exact hq

theorem cursorLeft_account {k : Nat} {s : State} (hq : quietReader s.sess) (hne : s.sess.blockType ≠ 3) :
    cursorLeft (account k s) := by
  obtain ⟨-, h3, -⟩ | ⟨-, h3, -⟩ | ⟨-, heq⟩ := account_cases k s
  · exact absurd h3 hne
  · exact absurd h3 hne
  · rw [heq]
    exact cursorLeft_afterElement ⟨hq.1, fun h => absurd h hne⟩

/-- Every effect outside frame headers and Uncompressed blocks keeps the law. -/
theorem Effect.cursorLeft {v t : State} {i : Instr} (ho : Opened v) (hrow : rowAt i v.sess.ds (awaited v))
    (hframe : v.sess.ds ≠ .frameHdr) (hun : v.sess.ds ≠ .decUncomp) (hq : quietReader v.sess)
    (hodd : v.cfg.oddPad = true) (he : Effect v i t) : Machine.cursorLeft t := by
  have started {u : State} (hp : u.pend = none) : awaited u ≠ .oddPad := by rw [awaited_of_none hp]; exact nofun
  have typed (hds : v.sess.ds = .decVerbatim ∨ v.sess.ds = .decAligned) (hin : inBlock v.sess) : v.sess.blockType ≠ 3 := by
    intro h3
    obtain ⟨hdec, -⟩ := hin
    rw [h3] at hdec
    exact hun (Option.some.inj (hdec : some DState.decUncomp = _)).symm
  cases he with
  | contRaw | contCompressed | rawCopy | e8 => exact cursorLeft_of_quietReader (started rfl) hq
  | frame a hl bs fs hi =>
    have hrow : v.sess.ds = .frameHdr ∧ awaited v = .started := by
      obtain rfl | ⟨h0, rfl⟩ := hi <;> exact hrow
    exact absurd hrow.1 hframe
  | blkVerbatim | blkAligned | blkUncomp | alignedLens | lenFooter | alignedFooter =>
    exact cursorLeft_of_quietReader (by rw [awaited_await]; exact nofun) hq
  | pretree b q ls _ _ _ hpass =>
    exact cursorLeft_passContinue (s := v.setSess { v.sess with preLen := ls }) hq hodd hpass
  | run b q x k n _ _ hpass =>
    refine cursorLeft_passContinue ?_ ?_ hpass
    · cases q <;> exact hq
    · cases q <;> exact hodd
  | uncompAlignR b r0 r1 r2 => exact cursorLeft_headerTail (s := v.setR r0 r1 r2) hq.1 nofun hodd
  | emitted b hi =>
    obtain rfl | rfl := hi
    · obtain ⟨hds, haw⟩ := hrow
      exact cursorLeft_account (s := emit b v) hq (typed hds ((stateOk_dec (hds.imp_right .inl)).mp (ho.state haw)))
    · exact absurd hrow.1 hun
  | matched len off r hi hok =>
    obtain ⟨hds, hin⟩ := ho.inBlock_of_isMatch hi hrow
    have hcopy := copyMatch_frame len off v
    refine cursorLeft_account ?_ ?_
    · rw [State.setR_sess, hcopy]
      exact hq
    · rw [State.setR_sess, hcopy]
      exact typed hds hin
  | oddPad haw => exact absurd (ho.oddPad haw).1 hun

/-! ## Frame headers and Uncompressed blocks -/

/-- A frame starts at an even cursor; a block under way has bytes behind it. -/
theorem cursorLeft_frame {a hl bs fs : Nat} {v t : State}
    (hlt : v.sess.blockType = 3 → v.sess.blockRem ≠ 0 → v.sess.blockRem < v.sess.blockLen)
    (h : frameStarted a hl bs fs v t) : cursorLeft t := by
  obtain ⟨heq, -⟩ := h
  refine cursorLeft_commit (by rw [heq]) ?_
  rw [heq]
  refine ⟨fun h => absurd (h : 0 % 2 = 1) (by decide : ¬ 0 % 2 = 1), fun h3 hne => ?_⟩
  have hlt := hlt h3 hne
  dsimp only at *
  exact ⟨by omega, fun _ => hlt, fun h => absurd h (by omega)⟩

/-- A byte of an Uncompressed block, the cursor one behind it. -/
theorem cursorLeft_rawByte {v : State} {b : Byte} {c : Nat} (hodd : v.cfg.oddPad = true) (hin : inBlock v.sess)
    (h3 : v.sess.blockType = 3) (hc : v.sess.rdC = c + 1) (hle : v.sess.blockRem ≤ v.sess.blockLen)
    (hpar : v.sess.blockLen - v.sess.blockRem ≤ v.sess.frameSize - v.sess.frameRem →
      c % 2 = (v.sess.blockLen - v.sess.blockRem) % 2) : cursorLeft (account 1 (emit b v)) := by
  obtain ⟨-, hbr, hfr, -⟩ := hin
  obtain ⟨hrem, -, -, hlen, heq⟩ | ⟨hrem, -, -, heq⟩ | ⟨hrem, heq⟩ := account_cases 1 (emit b v)
  · rw [heq]
    refine ⟨fun h => absurd rfl h, fun _ hin => ?_⟩
    simp only [emit_sess, await_sess] at hrem hlen hin ⊢
    omega
  · rw [heq]
    exact cursorLeft_afterElement ⟨reinit_even hodd, fun _ => hrem⟩
  · have hrem : v.sess.blockRem - 1 ≠ 0 := hrem.resolve_right fun h => h h3
    rw [heq]
    refine cursorLeft_commit (afterElement_frame _).2 ?_
    rw [afterElement_eq]
    refine ⟨fun _ => ⟨h3, hrem⟩, fun _ _ => ?_⟩
    simp only [emit_sess]
    refine ⟨by omega, fun _ => by omega, fun h => ?_⟩
    rw [hc]
    omega

/-- The pad byte ends the block at an even cursor. -/
theorem cursorLeft_oddPad {v t : State} (haw : awaited v = .oddPad) (hodd : v.cfg.oddPad = true)
    (hrem : v.sess.blockRem = 0) (h : exec .oddPad v = .next t) : cursorLeft t := by
  rw [exec_oddPad haw] at h
  cases h
  have heven (c : Nat) : (if v.cfg.oddPad = true then c + c % 2 else c) % 2 = 0 := by rw [if_pos hodd]; omega
  exact cursorLeft_commit rfl (cursorEven_of_quietReader ⟨heven (v.sess.rdC + 1), fun _ => hrem⟩)

/-! ## The step -/

/-- The states of a session that run no frame. -/
abbrev outsideFrame (d : DState) : Prop := d = .container ∨ d = .rawCopy ∨ d = .frameHdr

/-- Outside the frames every step is one element. -/
theorem Opened.started_outsideFrame {v : State} (ho : Opened v) (hds : outsideFrame v.sess.ds) : awaited v = .started := by
  have off {d : DState} {P : Prop} (h : v.sess.ds = d) (hno : ¬ outsideFrame d) : P := absurd (h ▸ hds) hno
  have block {P : Prop} (h : v.sess.ds = .decVerbatim ∨ v.sess.ds = .decAligned) : P :=
    h.elim (off · (by decide)) (off · (by decide))
  cases haw : awaited v with
  | started => rfl
  | alignedLens h => exact off (ho.alignedLens haw).1 (by decide)
  | pretree h p => exact off (treeHdrOk_iff.mp (ho.pretree haw)).1 (by decide)
  | preSym h p x => exact off (treeHdrOk_iff.mp (ho.preSym haw).1).1 (by decide)
  | lenFooter slot => exact block (ho.lenFooter haw).1
  | alignedSym slot len => exact off (ho.alignedSym haw).1 (by decide)
  | uncompAlignR h => exact off (ho.uncompAlignR haw).1 (by decide)
  | oddPad => exact off (ho.oddPad haw).1 (by decide)

/-- Outside the frames the effect is that of the container, of a raw copy or of a frame's start. -/
theorem Effect.cases_outsideFrame {v t : State} {i : Instr} {d : DState} (hd : outsideFrame d) (hrow : rowAt i d .started)
    (haw : awaited v = .started) (he : Effect v i t) :
    (d = .container ∧ t.busy = v.busy ∧ t.sess.ds ≠ .container)
      ∨ (d = .rawCopy ∧ t.busy = false ∧ t.done = true)
      ∨ d = .frameHdr ∧ ∃ a hl bs fs, fs ≠ 0 ∧ frameStarted a hl bs fs v t := by
  have off {d' : DState} {P : Prop} (h : d = d') (hno : ¬ outsideFrame d') : P := absurd (h ▸ hd) hno
  have block {P : Prop} (h : d = .decVerbatim ∨ d = .decAligned) : P := h.elim (off · (by decide)) (off · (by decide))
  have slotted {slot : Nat} {lh : BitVec 3} {P : Prop} (hi : Instr.ofSlot slot lh = some i) : P :=
    block ((rowAt_ofSlot hi).mp hrow).1
  have within {c : Ctx} {P : Prop} (h : awaited v = c) (hc : c ≠ .started) : P := absurd (h.symm.trans haw) hc
  cases he with
  | contRaw | contCompressed => exact .inl ⟨hrow.1, rfl, nofun⟩
  | rawCopy => exact .inr (.inl ⟨hrow.1, rfl, rfl⟩)
  | frame a hl bs fs hi _ hfs _ _ hstart =>
    refine .inr (.inr ⟨?_, a, hl, bs, fs, hfs, hstart⟩)
    obtain rfl | ⟨h0, rfl⟩ := hi
    · exact hrow.1
    · exact hrow.1
  | e8 present size register hi =>
    obtain rfl | rfl := hi
    · exact off hrow.1 (by decide)
    · exact off hrow.1 (by decide)
  | blkVerbatim | blkAligned | blkUncomp => exact off hrow.1 (by decide)
  | alignedLens h ls hctx | pretree h p ls hctx | run h p x k n hctx | uncompAlignR h r0 r1 r2 hctx | oddPad hctx =>
    exact within hctx nofun
  | emitted b hi =>
    obtain rfl | rfl := hi
    · exact block hrow.1
    · exact off hrow.1 (by decide)
  | lenFooter slot lh hi => exact slotted hi
  | alignedFooter slot len hi =>
    obtain ⟨lh, hi⟩ | ⟨rfl, hctx⟩ := hi
    · exact slotted hi
    · exact within hctx nofun
  | matched len off r hi =>
    obtain ⟨slot, lh, hi⟩ | ⟨rfl, slot, hctx⟩ | ⟨rfl, slot, len, hctx⟩ := hi
    · exact slotted hi
    · exact within hctx nofun
    · exact within hctx nofun

/-- The law of a committed state is that of its session. -/
theorem cursorOk_of_committed {t : State} (hp : t.pend = none) (h : cursorEven t.sess) : cursorOk t := by
  refine fun _ => ⟨by rwa [seen_of_none hp], fun _ => h, fun haw => ?_⟩
  rw [awaited_of_none hp] at haw
  cases haw

/-- Entering FAILED leaves the committed cursor. -/
theorem cursorOk_of_faulted {e : SessionError} {s t : State} (hc : s.cfg.oddPad = true → cursorEven s.seen)
    (h : faulted e s t) : cursorOk t := by
  have hcfg : t.cfg = s.cfg := by rw [h]
  intro hodd
  refine cursorOk_of_committed (by rw [h]) ?_ hodd
  rw [hcfg] at hodd
  rw [h]
  exact cursorEven_of_ds nofun (hc hodd)

/-- What the engine leaves, committed or open, keeps the law. -/
theorem cursorOk_of_moved {i : Instr} {u t : State} (hc : cursorEven u.seen) (h : moved i u t) (hleft : cursorLeft t) :
    cursorOk t := by
  intro _
  refine ⟨?_, hleft.1, hleft.2⟩
  by_cases hp : t.pend = none
  · rw [seen_of_none hp]
    exact hleft.1 (by rw [awaited_of_none hp]; exact nofun)
  · rwa [((moved_frame h).2 hp).2]

/-- In DEC_UNCOMP a raw byte or the pad byte is selected. -/
theorem Selected.of_decUncomp {v u : State} {w : Fetched} (hv : Opened v) (hw : Selected v w u)
    (hun : v.sess.ds = .decUncomp) :
    (∃ b, w = .rawByte b ∧ awaited v = .started ∧ Machine.readerOnly v u ∧ u.sess.rdC = v.sess.rdC + 1)
      ∨ w = .oddPad ∧ awaited v = .oddPad ∧ u = v := by
  have off {d : DState} {P : Prop} (h : v.sess.ds = d) (hne : DState.decUncomp ≠ d) : P := absurd (hun.symm.trans h) hne
  cases hw with
  | rawByte b _ haw hr hc => exact .inl ⟨b, rfl, haw, hr, hc⟩
  | oddPad haw => exact .inr ⟨rfl, haw, rfl⟩
  | badMagic _ hds | container _ _ _ hds | rawPayload hds | frame _ hds | stream _ hds | block _ hds =>
    exact off hds nofun
  | mainSym m hds => exact hds.elim (off · nofun) (off · nofun)
  | alignedLens h haw => exact off (hv.alignedLens haw).1 nofun
  | pretree h p haw => exact off (treeHdrOk_iff.mp (hv.pretree haw)).1 nofun
  | preSym h p x z haw => exact off (treeHdrOk_iff.mp (hv.preSym haw).1).1 nofun
  | lenFooter slot haw => exact (hv.lenFooter haw).1.elim (off · nofun) (off · nofun)
  | alignedSym slot len haw => exact off (hv.alignedSym haw).1 nofun
  | uncompBody h haw => exact off (hv.uncompAlignR haw).1 nofun

/-- The block decoded in DEC_UNCOMP is Uncompressed. -/
theorem inBlock.type_of_decUncomp {t : Session} (hin : inBlock t) (hun : t.ds = .decUncomp) : t.blockType = 3 := by
  obtain ⟨hdec, -⟩ := hin
  rw [hun, decStateOf_eq] at hdec
  obtain ⟨-, h⟩ | ⟨-, h⟩ | ⟨h, -⟩ := hdec
  · cases h
  · cases h
  · exact h

/-- An element of an Uncompressed block, from a legal state that keeps the law. -/
theorem cursorLeft_of_decUncomp {v u t : State} {w : Fetched} {i : Instr} (hv : Opened v) (hw : Selected v w u)
    (hi : instrOf u.cfg w = some i) (hbegin : begin u = u) (hodd : u.cfg.oddPad = true) (hun : v.sess.ds = .decUncomp)
    (hc : awaited v ≠ .oddPad → cursorEven v.sess) (hexec : exec i u = .next t) : cursorLeft t := by
  obtain ⟨hdec, -⟩ := instrOf_eq_some.mp hi
  obtain ⟨b, rfl, haw, hr, hrd⟩ | ⟨rfl, haw, rfl⟩ := hw.of_decUncomp hv hun
  · cases hdec
    rw [exec_rawByte, hbegin] at hexec
    cases hexec
    have hin := (stateOk_dec (.inr (.inr hun))).mp (hv.state haw)
    have h3 := hin.type_of_decUncomp hun
    obtain ⟨hle, -, hpar⟩ := (hc (by rw [haw]; exact nofun)).2 h3 hin.2.1
    refine cursorLeft_rawByte hodd ?_ ?_ hrd ?_ ?_
    all_goals rw [readerOnly_sess hr]
    · exact hin
    · exact h3
    · exact hle
    · exact hpar
  · cases hdec
    exact cursorLeft_oddPad haw hodd (hv.oddPad haw).2.2.1 hexec

/-- What an element that completes its part of a step leaves. -/
theorem cursorLeft_of_moved {v u t : State} {w : Fetched} {i : Instr} (hv : Opened v) (hw : Selected v w u)
    (hi : instrOf u.cfg w = some i) (ho : Opened u) (hbegin : begin u = u) (hodd : v.cfg.oddPad = true)
    (hc : awaited v ≠ .oddPad → cursorEven v.sess) (hexec : exec i u = .next t) (h : moved i u t) : cursorLeft t := by
  obtain ⟨x, hread, he⟩ := h
  rw [hbegin] at hread
  have hx : readerOnly v x := readerOnly_trans hw.readerOnly hread.1
  have hds : x.sess.ds = v.sess.ds := by rw [readerOnly_sess hx]
  have hoddu : u.cfg.oddPad = true := by rw [readerOnly_cfg hw.readerOnly]; exact hodd
  have hrow := hw.rowAt hi
  by_cases hframe : v.sess.ds = .frameHdr
  · have haw := hv.started_outsideFrame (.inr (.inr hframe))
    rw [hframe, haw] at hrow
    obtain ⟨h, -⟩ | ⟨h, -⟩ | ⟨-, a, hl, bs, fs, -, hstart⟩ :=
      he.cases_outsideFrame (.inr (.inr rfl)) hrow ((readerOnly_awaited hx).trans haw)
    · cases h
    · cases h
    refine cursorLeft_frame ?_ hstart
    rw [readerOnly_sess hx]
    exact fun h3 hne => ((hc (by rw [haw]; exact nofun)).2 h3 hne).2.1 hframe
  by_cases hun : v.sess.ds = .decUncomp
  · exact cursorLeft_of_decUncomp hv hw hi hbegin hoddu hun hc hexec
  have hawv : awaited v ≠ .oddPad := fun haw => hun (hv.oddPad haw).1
  have hq : quietReader x.sess :=
    quietReader_readOn (quietReader_readOn (hv.quietReader hframe hun (hc hawv)) (hw.readOn hun)) hread
  refine he.cursorLeft (ho.of_readOn hread (by rw [← hbegin, begin_pend])) ?_ ?_ ?_ hq ?_
  · rw [hds, readerOnly_awaited hx]
    exact hrow
  · rwa [hds]
  · rwa [hds]
  · rw [readerOnly_cfg hx]
    exact hodd

/-- A session without a block, at the start of its data. -/
theorem cursorEven_of_fresh {t : Session} (hc : t.rdC = 0) (hr : t.blockRem = 0) : cursorEven t :=
  cursorEven_of_quietReader ⟨by rw [hc], fun _ => hr⟩

/-- Every step from a legal state keeps the law. -/
theorem cursorOk_step {s t : State} (hs : legal s = true) (hc : cursorOk s) (h : step s = .next t) : cursorOk t := by
  have live (hp : s.pend = none) (hodd : s.cfg.oddPad = true) : cursorEven s.sess :=
    (hc hodd).2.1 (by rw [awaited_of_none hp]; exact nofun)
  cases stepCase h with
  | quiet => exact hc
  | reset => exact cursorOk_of_committed rfl (cursorEven_of_fresh rfl rfl)
  | complete hp => exact fun hodd => cursorOk_of_committed rfl (cursorEven_of_ds nofun (live hp hodd)) hodd
  | host hp a hexec =>
    cases hostCase (isHost_decodeHost a) hexec with
    | softReset r => exact cursorOk_of_committed rfl (cursorEven_of_fresh rfl rfl)
    | start irqEn hb r => exact cursorOk_of_committed rfl (cursorEven_of_fresh rfl rfl)
    | other h =>
      rw [h.frame]
      exact hc
  | @element u _ w i hgo hw hi hexec =>
    obtain ⟨ho, hbegin, -, -⟩ := opened_of_selected hs hgo hw hi
    have hseen : u.seen = s.seen := by
      rw [readerOnly_seen hw.readerOnly (begin_pend _), seen_begin]
      rfl
    have hcfg : u.cfg = s.cfg := (readerOnly_cfg hw.readerOnly).trans (begin_cfg _)
    obtain hmoved | ⟨e, -, hf⟩ := exec_moved (hw.not_host hi) hexec
    · intro hodd
      have hodd' : s.cfg.oddPad = true := by
        rwa [(engineFrame_hostSideKept (moved_frame hmoved).1).1, hcfg] at hodd
      refine cursorOk_of_moved (by rw [hseen]; exact (hc hodd').1) hmoved ?_ hodd
      refine cursorLeft_of_moved (opened_of_legal hs hgo) hw hi ho hbegin (by rw [begin_cfg]; exact hodd') ?_ hexec hmoved
      rw [awaited_begin, begin_sess]
      exact (hc hodd').2.1
    · exact cursorOk_of_faulted (fun hodd => by rw [hseen]; exact (hc (hcfg ▸ hodd)).1) hf
  | raised hgo he hf => exact cursorOk_of_faulted (s := atTurn s) (fun hodd => (hc hodd).1) hf

/-! ## The end of an Uncompressed block -/

/-- A raw byte present is fetched, the cursor behind it. -/
theorem fetch_rawByte {s : State} (hb : s.busy = true) (hp : s.pend = none) (hs : s.sched = [])
    (hds : s.sess.ds = .decUncomp) (hl : s.sess.rdC < s.sess.frameLen) :
    ∃ b u, fetch s = .element (.rawByte b) u ∧ readerOnly (begin s) u ∧ u.sess.rdC = s.sess.rdC + 1 := by
  have hpost := readByte_post (begin s)
  have hread := fetchByState_rawByte hds rfl
  have hne : ∀ e n, readByte (begin s) ≠ .raise e n := by
    intro e n h
    rw [readByte, begin_sess, if_neg (by omega)] at h
    cases h
  have hno : ∀ k, readByte (begin s) ≠ .refuse k := by
    intro k h
    rw [readByte, begin_sess, if_neg (by omega)] at h
    cases h
  generalize readByte (begin s) = r at hpost hread hne hno
  cases r with
  | ok b u =>
    obtain ⟨hr, hc, -⟩ := hpost
    exact ⟨b, u, fetch_of_state_ok hb hp hs hds nofun hread, hr, by rw [hc, begin_sess]⟩
  | raise e n => exact absurd rfl (hne e n)
  | refuse k => exact absurd rfl (hno k)

/-- The accounting of the last byte of an Uncompressed block: the pad byte is awaited at the cursor it left, or the reader
restarts there. -/
theorem account_lastByte {s : State} {b : Byte} (h3 : s.sess.blockType = 3) (hrem : s.sess.blockRem = 1)
    (hodd : s.cfg.oddPad = true) (heven : s.sess.blockLen % 2 = 0 → s.sess.rdC % 2 = 0) :
    (account 1 (emit b s)).sess.rdC = s.sess.rdC
      ∧ (s.sess.blockLen % 2 = 1 → awaited (account 1 (emit b s)) = .oddPad)
      ∧ (s.sess.blockLen % 2 = 0 → (account 1 (emit b s)).pend = none) := by
  have hlast : (emit b s).sess.blockRem - 1 = 0 := by rw [emit_sess]; dsimp only; omega
  have h3' : (emit b s).sess.blockType = 3 := by rw [emit_sess]; exact h3
  have hlen : (emit b s).sess.blockLen = s.sess.blockLen := by rw [emit_sess]
  have hrd : (emit b s).sess.rdC = s.sess.rdC := by rw [emit_sess]
  obtain h0 | h1 := Nat.mod_two_eq_zero_or_one s.sess.blockLen
  · rw [account_restart hlast h3' (by rw [hlen, h0]; nofun)]
    refine ⟨?_, fun h => absurd (h0.symm.trans h) (by decide), fun _ => (afterElement_frame _).2⟩
    rw [afterElement_eq]
    refine (reinit_rdC_of_even fun _ => ?_).trans hrd
    exact (congrArg (· % 2) hrd).trans (heven h0)
  · rw [account_pad hlast h3' (by rw [emit_cfg]; exact hodd) (by rw [hlen]; exact h1)]
    exact ⟨hrd, fun _ => rfl, fun h => absurd (h1.symm.trans h) (by decide)⟩

/-- Settles O60: the resets begin at cursor 0, a step keeps the law, and the last byte and the pad byte move the cursor by
one each. -/
theorem evenCursor : Obligations.EvenCursor := by
  unfold Obligations.EvenCursor
  refine ⟨fun p => cursorOk_of_committed rfl (cursorEven_of_fresh rfl rfl), fun s t => cursorOk_step, ?_, ?_⟩
  · intro s hs hc hodd hb hp hsch hds hrem hlen hl
    obtain ⟨hv, -⟩ := legal_iff.mp hs
    have hok : stateOk s.sess = true := by
      have h := (opened_of_legal hs fun _ => hb).state ((awaited_begin _).trans (awaited_of_none hp))
      rwa [begin_sess] at h
    have h3 := ((stateOk_dec (.inr (.inr hds))).mp hok).type_of_decUncomp hds
    have hlive : cursorEven s.sess := (hc hodd).2.1 (by rw [awaited_of_none hp]; exact nofun)
    obtain ⟨hle, -, hpar⟩ := hlive.2 h3 (by rw [hrem]; decide)
    obtain ⟨b, u, hfetch, hr, hrd⟩ := fetch_rawByte hb hp hsch hds hl
    have hpend := (readerOnly_pend hr).trans (begin_pend s)
    have hu := readerOnly_sess hr
    have hoddu : u.cfg.oddPad = true := by rw [readerOnly_cfg hr, begin_cfg]; exact hodd
    refine ⟨_, (step_of_element hv hfetch rfl).trans (exec_rawByte b u), ?_⟩
    rw [begin_of_some hpend]
    have hlen : u.sess.blockLen = s.sess.blockLen := by rw [hu, begin_sess]
    rw [← hrd, ← hlen]
    refine account_lastByte (by rw [hu, begin_sess]; exact h3) (by rw [hu, begin_sess]; exact hrem) hoddu ?_
    rw [hlen, hrd]
    intro h
    have := hpar (by omega)
    omega
  · intro s hs hc hodd haw hlen
    obtain ⟨hv, -⟩ := legal_iff.mp hs
    obtain ⟨p, hp⟩ : ∃ p, s.pend = some p := by
      refine Option.ne_none_iff_exists'.mp fun hp => ?_
      rw [awaited_of_none hp] at haw
      cases haw
    have hctx : p.ctx = .oddPad := by rw [← haw, awaited, hp]
    have hfetch : fetch s = .element .oddPad s := by rw [fetch_of_pend hp, hctx]; rfl
    have hc := (hc hodd).2.2 haw hlen
    refine ⟨_, (step_of_element hv hfetch rfl).trans (exec_oddPad haw), ?_, rfl⟩
    have hkeep : (if s.cfg.oddPad = true then s.sess.rdC + 1 + (s.sess.rdC + 1) % 2 else s.sess.rdC + 1)
        = s.sess.rdC + 1 := by
      rw [if_pos hodd]
      omega
    exact hkeep

end Sys2Proof.Machine
end

section
/-! SUPPORT. Every session ends (70_reset_and_hazards.md R197): a lexicographic measure of the work left, and that every
step of the engine lowers it. -/

namespace Sys2Proof.Machine

/-! ## The work left -/

/-- The work left: the container, the bytes owed, the frame header due, the bits left in the frame, the pad byte due; the
earlier counts for more. -/
def workLeft (s : State) : ℕ ×ₗ ℕ ×ₗ ℕ ×ₗ ℕ ×ₗ ℕ :=
  toLex (if s.sess.ds = .container then 1 else 0, toLex (s.sess.decSize - s.sess.produced,
    toLex (if s.sess.frameRem = 0 then 1 else 0, toLex (bitsLeft s.sess, if awaited s = .oddPad then 1 else 0))))

/-- The container is behind `t`: its session is another one's work. -/
theorem workLeft_lt_of_container {s t : State} (hs : s.sess.ds = .container) (ht : t.sess.ds ≠ .container) :
    workLeft t < workLeft s :=
  Prod.Lex.toLex_lt_toLex.mpr (.inl (by simp only [hs, ht, if_true, if_false, Nat.zero_lt_one]))

section
variable {s t : State} (hs : s.sess.ds ≠ .container) (ht : t.sess.ds ≠ .container)
  (hsize : t.sess.decSize = s.sess.decSize)
include hs ht hsize

theorem workLeft_lt_of_emitted (hmore : s.sess.produced < t.sess.produced) (hle : t.sess.produced ≤ s.sess.decSize) :
    workLeft t < workLeft s := by
  refine Prod.Lex.toLex_lt_toLex.mpr (.inr ⟨by simp only [hs, ht, if_false], Prod.Lex.toLex_lt_toLex.mpr (.inl ?_)⟩)
  rw [hsize]
  omega

/-- Two sessions that owe the same bytes compare by the rest of their work. -/
theorem workLeft_lt_of_owed (howed : t.sess.produced = s.sess.produced)
    (h : toLex (if t.sess.frameRem = 0 then 1 else 0, toLex (bitsLeft t.sess, if awaited t = .oddPad then 1 else 0))
      < toLex (if s.sess.frameRem = 0 then 1 else 0, toLex (bitsLeft s.sess, if awaited s = .oddPad then 1 else 0))) :
    workLeft t < workLeft s :=
  Prod.Lex.toLex_lt_toLex.mpr (.inr ⟨by simp only [hs, ht, if_false],
    Prod.Lex.toLex_lt_toLex.mpr (.inr ⟨by simp only [hsize, howed], h⟩)⟩)

theorem workLeft_lt_of_frame (howed : t.sess.produced = s.sess.produced) (hrem : s.sess.frameRem = 0)
    (hnew : t.sess.frameRem ≠ 0) : workLeft t < workLeft s :=
  workLeft_lt_of_owed hs ht hsize howed
    (Prod.Lex.toLex_lt_toLex.mpr (.inl (by simp only [hrem, hnew, if_true, if_false, Nat.zero_lt_one])))

theorem workLeft_lt_of_bits (howed : t.sess.produced = s.sess.produced) (hrem : t.sess.frameRem = s.sess.frameRem)
    (hbits : bitsLeft t.sess < bitsLeft s.sess) : workLeft t < workLeft s :=
  workLeft_lt_of_owed hs ht hsize howed
    (Prod.Lex.toLex_lt_toLex.mpr (.inr ⟨by simp only [hrem], Prod.Lex.toLex_lt_toLex.mpr (.inl hbits)⟩))

theorem workLeft_lt_of_pad (howed : t.sess.produced = s.sess.produced) (hrem : t.sess.frameRem = s.sess.frameRem)
    (hbits : bitsLeft t.sess ≤ bitsLeft s.sess) (hpad : awaited s = .oddPad) (hnext : awaited t ≠ .oddPad) :
    workLeft t < workLeft s := by
  refine workLeft_lt_of_owed hs ht hsize howed
    (Prod.Lex.toLex_lt_toLex.mpr (.inr ⟨by simp only [hrem], Prod.Lex.toLex_lt_toLex.mpr ?_⟩))
  obtain h | h := Nat.lt_or_eq_of_le hbits
  · exact .inl h
  · exact .inr ⟨h, by simp only [hpad, hnext, if_true, if_false, Nat.zero_lt_one]⟩

end

/-! ## What an element leaves of it -/

theorem bitsLeft_restart {t : Session} {c : Nat} (hc : t.rdC ≤ c) :
    bitsLeft { t with rdC := c, rdQ := [] } ≤ bitsLeft t := by
  simp only [bitsLeft, List.countP_nil]
  omega

theorem reinit_bitsLeft (s : State) : bitsLeft (reinit s).sess ≤ bitsLeft s.sess := by
  rw [reinit_sess]
  refine bitsLeft_restart ?_
  split <;> omega

/-- What the engine leaves behind its reads outside the container, the frame header and an Uncompressed block: more output,
or the same output owed and no bit more to read. -/
def spends (v t : State) : Prop :=
  t.busy = v.busy ∧ t.sess.ds ≠ .container ∧ t.sess.decSize = v.sess.decSize
    ∧ (v.sess.produced < t.sess.produced ∧ t.sess.produced ≤ v.sess.decSize
      ∨ t.sess.produced = v.sess.produced ∧ t.sess.frameRem = v.sess.frameRem ∧ bitsLeft t.sess ≤ bitsLeft v.sess)

/-- An element that writes no output and leaves the reader. -/
theorem spends_of_kept {v t : State} (hbusy : t.busy = v.busy) (hds : t.sess.ds ≠ .container)
    (hsize : t.sess.decSize = v.sess.decSize) (howed : t.sess.produced = v.sess.produced)
    (hrem : t.sess.frameRem = v.sess.frameRem) (hbits : bitsLeft t.sess ≤ bitsLeft v.sess) : spends v t :=
  ⟨hbusy, hds, hsize, .inr ⟨howed, hrem, hbits⟩⟩

theorem spends_headerTail {b : BlockHdr} {d : DState} (hd : d ≠ .container) (s : State) : spends s (headerTail b d s) := by
  have hre := reinit_bitsLeft s
  rw [headerTail_eq]
  refine spends_of_kept rfl ?_ rfl rfl rfl ?_
  · dsimp only
    split
    · nofun
    · exact hd
  · by_cases h : b.len = 0 ∧ b.type = 3
    · simp only [if_pos h]
      exact hre
    · simp only [if_neg h]
      exact Nat.le_refl _

theorem spends_passContinue {b : BlockHdr} {p : Pass} {x : Nat} {s t : State} (hds : s.sess.ds ≠ .container)
    (h : passContinue b p x s = .ok () t) : spends s t := by
  have kept (c : Ctx) : spends s (await c s) := spends_of_kept rfl hds rfl rfl rfl (Nat.le_refl _)
  obtain ⟨-, rfl⟩ | ⟨-, rfl⟩ | ⟨-, -, rfl⟩ | ⟨-, -, rfl⟩ := passContinue_cases h
  · exact kept _
  · exact kept _
  · exact kept _
  · refine spends_headerTail ?_ s
    unfold treeDecState
    split <;> nofun

theorem afterCounts_ds {t : Session} (h : t.ds ≠ .container) (b f : Nat) : (afterCounts t b f).1 ≠ .container := by
  unfold afterCounts
  split
  · nofun
  · split
    · nofun
    · exact h

theorem afterElement_ds {s : State} (h : s.sess.ds ≠ .container) : (afterElement s).sess.ds ≠ .container := by
  rw [afterElement_eq]
  exact afterCounts_ds h _ _

/-- The accounting of `k` bytes: the output is as it was, the frame owes `k` bytes less. -/
theorem account_left (k : Nat) {s : State} (hds : s.sess.ds ≠ .container) :
    (account k s).busy = s.busy ∧ (account k s).sess.ds ≠ .container ∧ (account k s).sess.decSize = s.sess.decSize
      ∧ (account k s).sess.produced = s.sess.produced ∧ (account k s).sess.frameRem = s.sess.frameRem - k
      ∧ bitsLeft (account k s).sess ≤ bitsLeft s.sess := by
  obtain ⟨-, -, -, -, heq⟩ | ⟨-, -, -, heq⟩ | ⟨-, heq⟩ := account_cases k s
  · rw [heq]
    exact ⟨rfl, hds, rfl, rfl, rfl, Nat.le_refl _⟩
  · rw [heq]
    refine ⟨?_, afterElement_ds (s := reinit _) hds, ?_⟩
    · rw [afterElement_eq]
      rfl
    · rw [afterElement_eq]
      exact ⟨rfl, rfl, rfl, reinit_bitsLeft s⟩
  · rw [heq]
    refine ⟨?_, afterElement_ds (s := { s with sess := { s.sess with
      blockRem := s.sess.blockRem - k, frameRem := s.sess.frameRem - k } }) hds, ?_⟩
    · rw [afterElement_eq]
    · rw [afterElement_eq]
      exact ⟨rfl, rfl, rfl, Nat.le_refl _⟩

/-- One byte of output, accounted for. -/
theorem spends_emitted {v : State} (b : Byte) (hds : v.sess.ds ≠ .container) (hrem : v.sess.frameRem ≠ 0)
    (howed : v.sess.produced + v.sess.frameRem ≤ v.sess.decSize) : spends v (account 1 (emit b v)) := by
  obtain ⟨hbusy, hds, hsize, hprod, -, -⟩ := account_left 1 (s := emit b v) hds
  have hprod : (account 1 (emit b v)).sess.produced = v.sess.produced + 1 := hprod
  exact ⟨hbusy, hds, hsize, .inl ⟨by omega, by omega⟩⟩

/-- A match, accounted for; one of length 0, which no legal run has, leaves the output and the frame as they were. -/
theorem spends_matched {v : State} (len off : Nat) (r : Word × Word × Word) (hds : v.sess.ds ≠ .container)
    (hok : matchAllowed len off v) (howed : v.sess.produced + v.sess.frameRem ≤ v.sess.decSize) :
    spends v (account len ((copyMatch len off v).setR r.1 r.2.1 r.2.2)) := by
  obtain ⟨-, hlen, -⟩ := hok
  have hcopied : ((copyMatch len off v).setR r.1 r.2.1 r.2.2).busy = v.busy
      ∧ ((copyMatch len off v).setR r.1 r.2.1 r.2.2).sess.ds = v.sess.ds
      ∧ ((copyMatch len off v).setR r.1 r.2.1 r.2.2).sess.decSize = v.sess.decSize
      ∧ ((copyMatch len off v).setR r.1 r.2.1 r.2.2).sess.produced = v.sess.produced + len
      ∧ ((copyMatch len off v).setR r.1 r.2.1 r.2.2).sess.frameRem = v.sess.frameRem
      ∧ bitsLeft ((copyMatch len off v).setR r.1 r.2.1 r.2.2).sess = bitsLeft v.sess := by
    rw [copyMatch_frame]
    exact ⟨rfl, rfl, rfl, rfl, rfl, rfl⟩
  generalize (copyMatch len off v).setR r.1 r.2.1 r.2.2 = c at hcopied ⊢
  obtain ⟨hbusy, hcds, hsize, hprod, hrem, hbits⟩ := hcopied
  obtain ⟨hbusy', hds', hsize', hprod', hrem', hbits'⟩ := account_left len (s := c) (by rwa [hcds])
  refine ⟨hbusy'.trans hbusy, hds', hsize'.trans hsize, ?_⟩
  obtain rfl | hpos := Nat.eq_zero_or_pos len
  · exact .inr ⟨by omega, by omega, by omega⟩
  · exact .inl ⟨by omega, by omega⟩

/-- Every effect outside the container, raw copies, frame headers and Uncompressed blocks spends what it reads. -/
theorem Effect.spends {v t : State} {i : Instr} (ho : Opened v) (hrow : rowAt i v.sess.ds (awaited v))
    (hcont : v.sess.ds ≠ .container) (hraw : v.sess.ds ≠ .rawCopy) (hframe : v.sess.ds ≠ .frameHdr)
    (hun : v.sess.ds ≠ .decUncomp) (he : Effect v i t) : Machine.spends v t := by
  have kept (c : Ctx) : Machine.spends v (await c v) := spends_of_kept rfl hcont rfl rfl rfl (Nat.le_refl _)
  cases he with
  | contRaw | contCompressed => exact absurd hrow.1 hcont
  | rawCopy => exact absurd hrow.1 hraw
  | frame a hl bs fs hi =>
    have hrow : v.sess.ds = .frameHdr ∧ awaited v = .started := by
      obtain rfl | ⟨h0, rfl⟩ := hi <;> exact hrow
    exact absurd hrow.1 hframe
  | e8 => exact spends_of_kept rfl nofun rfl rfl rfl (Nat.le_refl _)
  | blkVerbatim | blkAligned | blkUncomp | lenFooter | alignedFooter => exact kept _
  | alignedLens => exact spends_of_kept rfl hcont rfl rfl rfl (Nat.le_refl _)
  | pretree b q ls _ _ _ hpass => exact spends_passContinue (s := v.setSess { v.sess with preLen := ls }) hcont hpass
  | run b q x k n _ _ hpass =>
    have hkeep : (q.setArr (fillEntries (q.arr v) x k n) v).sess.ds ≠ .container := by cases q <;> exact hcont
    have hspent := spends_passContinue hkeep hpass
    cases q <;> exact hspent
  | uncompAlignR b r0 r1 r2 => exact spends_headerTail (d := .decUncomp) nofun (v.setR r0 r1 r2)
  | emitted b hi =>
    obtain rfl | rfl := hi
    · obtain ⟨hds, haw⟩ := hrow
      obtain ⟨-, -, hrem, -⟩ := (stateOk_dec (hds.imp_right .inl)).mp (ho.state haw)
      exact spends_emitted b hcont hrem ho.owes.1
    · exact absurd hrow.1 hun
  | matched len off r hi hok => exact spends_matched len off r hcont hok ho.owes.1
  | oddPad haw => exact absurd (ho.oddPad haw).1 hun

/-! ## The step -/

/-- Outside the container, raw copies, frame headers and Uncompressed blocks every element reads a bit: its selector or its
own. -/
theorem Selected.reads {v u : State} {w : Fetched} {i : Instr} {p : Params} (hw : Selected v w u)
    (hi : instrOf p w = some i) (hcont : v.sess.ds ≠ .container) (hraw : v.sess.ds ≠ .rawCopy)
    (hframe : v.sess.ds ≠ .frameHdr) (hun : awaited v ≠ .oddPad) (hds : v.sess.ds ≠ .decUncomp) :
    bitsLeft u.sess + 1 ≤ bitsLeft v.sess + minBits i := by
  obtain ⟨hdec, -⟩ := instrOf_eq_some.mp hi
  have selected {n : Nat} (hn : 1 ≤ n) (hr : Machine.readOn n v u) : bitsLeft u.sess + 1 ≤ bitsLeft v.sess + minBits i := by
    obtain ⟨-, -, -, hbits⟩ := hr
    omega
  cases hw with
  | badMagic _ h | container _ _ _ h => exact absurd h hcont
  | rawPayload h => exact absurd h hraw
  | frame _ h => exact absurd h hframe
  | rawByte _ h => exact absurd h hds
  | oddPad h => exact absurd h hun
  | stream _ _ _ hr => exact selected (by decide) hr
  | block _ _ _ hr => exact selected (by decide) hr
  | mainSym _ _ _ _ hr => exact selected (by decide) hr
  | preSym _ _ _ _ _ _ hr => exact selected (by decide) hr
  | alignedLens | pretree | lenFooter | alignedSym | uncompBody =>
    cases hdec
    exact Nat.le_refl _

/-- A frame's start leaves its output owed. -/
theorem workLeft_lt_of_frameStarted {a hl bs fs : Nat} {v x t : State} (hx : readerOnly v x)
    (hds : v.sess.ds = .frameHdr) (hrem : v.sess.frameRem = 0) (hfs : fs ≠ 0) (h : frameStarted a hl bs fs x t) :
    t.busy = v.busy ∧ workLeft t < workLeft v := by
  obtain ⟨heq, hstream, hblock, hdec⟩ := h
  have hnext : t.sess.ds ≠ .container := by
    cases hread : x.sess.headerRead with
    | false => rw [hstream hread]; nofun
    | true =>
      by_cases h0 : x.sess.blockRem = 0
      · rw [hblock hread h0]
        nofun
      · intro h
        have := hdec hread h0
        rw [h, decStateOf_eq] at this
        obtain ⟨-, h⟩ | ⟨-, h⟩ | ⟨-, h⟩ := this <;> cases h
  have hsess := readerOnly_sess hx
  refine ⟨?_, workLeft_lt_of_frame (by rw [hds]; nofun) hnext ?_ ?_ hrem ?_⟩
  · rw [heq]
    exact (readerOnly_busy hx : x.busy = v.busy)
  · rw [heq, hsess]
  · rw [heq, hsess]
  · rw [heq]
    exact hfs

/-- An element of an Uncompressed block lowers the work left. -/
theorem workLeft_lt_of_decUncomp {v u t : State} {w : Fetched} {i : Instr} (hv : Opened v) (hw : Selected v w u)
    (hi : instrOf u.cfg w = some i) (hbegin : begin u = u) (hun : v.sess.ds = .decUncomp) (hexec : exec i u = .next t) :
    t.busy = v.busy ∧ workLeft t < workLeft v := by
  obtain ⟨hdec, -⟩ := instrOf_eq_some.mp hi
  have hds : v.sess.ds ≠ .container := by rw [hun]; nofun
  obtain ⟨b, rfl, haw, hr, -⟩ | ⟨rfl, haw, rfl⟩ := hw.of_decUncomp hv hun
  · cases hdec
    rw [exec_rawByte, hbegin] at hexec
    cases hexec
    obtain ⟨-, -, hrem, -⟩ := (stateOk_dec (.inr (.inr hun))).mp (hv.state haw)
    have hsess := readerOnly_sess hr
    obtain ⟨hbusy, hdst, hsize, hprod, -⟩ := account_left 1 (s := emit b u) (by rw [emit_sess, hsess]; exact hds)
    have hprod : (account 1 (emit b u)).sess.produced = u.sess.produced + 1 := hprod
    have hprod' : u.sess.produced = v.sess.produced := by rw [hsess]
    have howed := hv.owes.1
    refine ⟨hbusy.trans (readerOnly_busy hr : u.busy = v.busy), workLeft_lt_of_emitted hds hdst ?_ (by omega) (by omega)⟩
    exact hsize.trans (by rw [emit_sess, hsess])
  · cases hdec
    rw [exec_oddPad haw] at hexec
    cases hexec
    have hc : u.sess.rdC ≤ if u.cfg.oddPad = true then u.sess.rdC + 1 + (u.sess.rdC + 1) % 2 else u.sess.rdC + 1 := by
      split <;> omega
    refine ⟨rfl, ?_⟩
    exact workLeft_lt_of_pad (t := { u with pend := none, sess := { u.sess with
        rdC := if u.cfg.oddPad = true then u.sess.rdC + 1 + (u.sess.rdC + 1) % 2 else u.sess.rdC + 1
        rdQ := []
        ds := (afterCounts u.sess u.sess.blockRem u.sess.frameRem).1
        inPos := (afterCounts u.sess u.sess.blockRem u.sess.frameRem).2 } })
      hds (afterCounts_ds hds _ _) rfl rfl rfl (bitsLeft_restart (t := u.sess) hc) haw nofun

/-- An element that completes its part of a step ends the session or lowers the work left. -/
theorem workLeft_lt_of_moved {v u t : State} {w : Fetched} {i : Instr} (hv : Opened v) (hw : Selected v w u)
    (hi : instrOf u.cfg w = some i) (ho : Opened u) (hbegin : begin u = u) (hexec : exec i u = .next t)
    (h : moved i u t) : t.busy = false ∧ t.done = true ∨ t.busy = v.busy ∧ workLeft t < workLeft v := by
  obtain ⟨x, hread, he⟩ := h
  rw [hbegin] at hread
  have hx : readerOnly v x := readerOnly_trans hw.readerOnly hread.1
  have hds : x.sess.ds = v.sess.ds := by rw [readerOnly_sess hx]
  have hrow := hw.rowAt hi
  by_cases hout : outsideFrame v.sess.ds
  · have haw := hv.started_outsideFrame hout
    rw [haw] at hrow
    obtain ⟨hcont, hbusy, hnext⟩ | ⟨-, hidle, hdone⟩ | ⟨hframe, a, hl, bs, fs, hfs, hstart⟩ :=
      he.cases_outsideFrame hout hrow ((readerOnly_awaited hx).trans haw)
    · exact .inr ⟨hbusy.trans (readerOnly_busy hx), workLeft_lt_of_container hcont hnext⟩
    · exact .inl ⟨hidle, hdone⟩
    · have hrem := ((stateOk_frameHdr hframe).mp (hv.state haw)).1
      exact .inr (workLeft_lt_of_frameStarted hx hframe hrem hfs hstart)
  by_cases hun : v.sess.ds = .decUncomp
  · exact .inr (workLeft_lt_of_decUncomp hv hw hi hbegin hun hexec)
  have hcont : v.sess.ds ≠ .container := fun h => hout (.inl h)
  have hraw : v.sess.ds ≠ .rawCopy := fun h => hout (.inr (.inl h))
  have hframe : v.sess.ds ≠ .frameHdr := fun h => hout (.inr (.inr h))
  have hpad : awaited v ≠ .oddPad := fun haw => hun (hv.oddPad haw).1
  have hreads := hw.reads hi hcont hraw hframe hpad hun
  have hox := ho.of_readOn hread (by rw [← hbegin, begin_pend])
  obtain ⟨-, -, -, hbits⟩ := hread
  rw [← readerOnly_awaited hx, ← hds] at hrow
  rw [← hds] at hcont hraw hframe hun
  obtain ⟨hbusy, hdst, hsize, hspent⟩ := he.spends hox hrow hcont hraw hframe hun
  have hsess := readerOnly_sess hx
  refine .inr ⟨hbusy.trans (readerOnly_busy hx), ?_⟩
  rw [hds] at hcont
  have hsize' : t.sess.decSize = v.sess.decSize := by rw [hsize, hsess]
  have hprod : x.sess.produced = v.sess.produced := by rw [hsess]
  have hrem : x.sess.frameRem = v.sess.frameRem := by rw [hsess]
  obtain ⟨hmore, hle⟩ | ⟨howed, hrem', hbits'⟩ := hspent
  · exact workLeft_lt_of_emitted hcont hdst hsize' (by omega) (by omega)
  · exact workLeft_lt_of_bits hcont hdst hsize' (by omega) (by omega) (by omega)

theorem hostSideKept.sched {s t : State} (h : hostSideKept s t) : t.sched = s.sched := by
  obtain ⟨-, -, -, -, -, hsched, -⟩ := h
  exact hsched

theorem workLeft_begin (s : State) : workLeft (begin s) = workLeft s := by
  simp only [workLeft, begin_sess, awaited_begin]

/-- While BUSY, a step of a legal machine ends the session or lowers the work left. -/
theorem workLeft_step {s t : State} (hs : legal s = true) (hsched : s.sched = []) (hb : s.busy = true)
    (h : step s = .next t) :
    t.sched = [] ∧ (t.busy = false ∧ (t.done = true ∨ t.failed = true) ∨ t.busy = true ∧ workLeft t < workLeft s) := by
  have hturn : (atTurn s).sched = [] := by rw [atTurn_of_nil hsched, hsched]
  cases stepCase h with
  | quiet hp hidle => exact absurd (hidle.symm.trans hb) Bool.false_ne_true
  | reset _ hne => exact absurd hsched hne
  | host _ a _ hne => exact absurd hsched hne
  | complete => exact ⟨hturn, .inl ⟨rfl, .inl rfl⟩⟩
  | @element u _ w i hgo hw hi hexec =>
    obtain ⟨ho, hbegin, -, -⟩ := opened_of_selected hs hgo hw hi
    have hschedu : u.sched = [] := by rw [hw.hostSideKept.sched]; exact hturn
    obtain hmoved | ⟨e, -, hf⟩ := exec_moved (hw.not_host hi) hexec
    · refine ⟨?_, ?_⟩
      · rw [(engineFrame_hostSideKept (moved_frame hmoved).1).sched]
        exact hschedu
      · obtain ⟨hidle, hdone⟩ | ⟨hbusy, hlt⟩ :=
          workLeft_lt_of_moved (opened_of_legal hs hgo) hw hi ho hbegin hexec hmoved
        · exact .inl ⟨hidle, .inl hdone⟩
        · rw [begin_busy] at hbusy
          exact .inr ⟨hbusy.trans hb, by rw [workLeft_begin] at hlt; exact hlt⟩
    · rw [hf]
      exact ⟨hschedu, .inl ⟨rfl, .inr rfl⟩⟩
  | raised hgo he hf =>
    rw [hf]
    exact ⟨hturn, .inl ⟨rfl, .inr rfl⟩⟩

theorem runSteps_succ {k : Nat} {s t : State} (h : step s = .next t) : runSteps (k + 1) s = runSteps k t := by
  have h : Sys2Proof.core.step s = .next t := h
  simp only [runSteps, Host.Core.run, h]
  rfl

/-- While BUSY, the session of a legal machine ends. -/
theorem busy_ends (s : State) (hs : legal s = true) (hsched : s.sched = []) (hb : s.busy = true) :
    ∃ k t, runSteps k s = .next t ∧ t.busy = false ∧ (t.done = true ∨ t.failed = true) := by
  obtain ⟨t, h⟩ := legalStepAnswersNext s hs
  obtain ⟨hsched', ⟨hidle, hend⟩ | ⟨hbusy, hlt⟩⟩ := workLeft_step hs hsched hb h
  · exact ⟨1, t, runSteps_succ h, hidle, hend⟩
  · obtain ⟨k, u, hrun, hu⟩ := busy_ends t (stepKeepsLegal s t hs h) hsched' hbusy
    exact ⟨k + 1, u, (runSteps_succ h).trans hrun, hu⟩
termination_by workLeft s
decreasing_by exact hlt

/-- Settles O10, by well-founded induction on the work left. -/
theorem sessionEnds : Obligations.SessionEnds := by
  unfold Obligations.SessionEnds
  intro s hs hsched
  cases hb : s.busy with
  | false => exact ⟨0, s, rfl, hb, fun h => absurd h Bool.false_ne_true⟩
  | true =>
    obtain ⟨k, t, hrun, hidle, hend⟩ := busy_ends s hs hsched hb
    exact ⟨k, t, hrun, hidle, fun _ => hend⟩

end Sys2Proof.Machine
end

section
/-! SUPPORT. Two runs in step (60_exceptions.md R177, 70_reset_and_hazards.md R198): states that differ only in what no run
depends on, and that every read of the engine finds the same in both. -/

namespace Sys2Proof.Machine

/-! ## States in step -/

/-- What no run depends on: `IN` and `OUT` as they are outside the run's bytes, the host's controls, the bus side and the
count of draws. -/
structure Surround where
  inp : Memory
  out : Memory
  irqEn : Bool
  cmdIgnored : Bool
  sched : List Turn
  resp : Resp
  busErr : Bool
  draws : Nat

/-- The state in another surround. -/
def Surround.put (q : Surround) (s : State) : State :=
  { s with
    inp := q.inp, out := q.out, irqEn := q.irqEn, cmdIgnored := q.cmdIgnored
    sched := q.sched, resp := q.resp, busErr := q.busErr, draws := q.draws }

/-- The surround holds what the run of `s` depends on: the engine is alone on both schedules, the file is written and the
same in both, the reader and a raw copy stay inside it, the window has its history, and the bytes of `OUT` produced are the
same. -/
structure Surround.Fits (q : Surround) (s : State) : Prop where
  alone : s.sched = [] ∧ q.sched = []
  file : ∀ a, a < s.inLen → ∃ b, s.inp.get? a = some b ∧ q.inp.get? a = some b
  frame : s.sess.frameBase + s.sess.frameLen ≤ s.inLen
  history : sessionHistory s.cfg s.sess
  payload : s.sess.ds = .rawCopy → s.sess.decSize ≤ s.inLen - 10
  output : ∀ a, a < s.sess.produced ∨ a < s.seen.produced → q.out.get? a = s.out.get? a

/-- Two runs are in step. -/
def inStep (s t : State) : Prop := ∃ q : Surround, t = q.put s ∧ q.Fits s

/-- What the fit of a surround speaks of, but for the engine state. -/
abbrev runBasis (s : State) :=
  (s.sched, s.inp, s.inLen, s.cfg, s.out, s.sess.frameBase, s.sess.frameLen, s.sess.win, s.sess.wpos, s.sess.written,
    s.sess.produced)

/-- The output of a state that produced as much is the same in both runs. -/
theorem Surround.Fits.output_of {q : Surround} {s s' : State} (h : q.Fits s) (hout : s'.out = s.out)
    (hprod : s'.sess.produced = s.sess.produced) (hseen : s'.seen = s.seen ∨ s'.seen = s'.sess) (a : Nat)
    (ha : a < s'.sess.produced ∨ a < s'.seen.produced) : q.out.get? a = s'.out.get? a := by
  rw [hout]
  refine h.output a ?_
  obtain h | h := hseen
  · rwa [h, hprod] at ha
  · rw [h, hprod] at ha
    exact .inl (ha.elim id id)

/-- The same surround fits a state that moved elsewhere. -/
theorem Surround.Fits.of_kept {q : Surround} {s s' : State} (h : q.Fits s) (hbasis : runBasis s' = runBasis s)
    (hraw : s'.sess.ds = .rawCopy → s'.sess.decSize ≤ s.inLen - 10) (hseen : s'.seen = s.seen ∨ s'.seen = s'.sess) :
    q.Fits s' := by
  simp only [runBasis, Prod.mk.injEq] at hbasis
  obtain ⟨hsched, hinp, hlen, hcfg, hout, hbase, hflen, hwin, hpos, hwritten, hprod⟩ := hbasis
  refine ⟨⟨hsched.trans h.alone.1, h.alone.2⟩, ?_, ?_, ?_, ?_, h.output_of hout hprod hseen⟩
  · rw [hinp, hlen]
    exact h.file
  · rw [hbase, hflen, hlen]
    exact h.frame
  · rw [hcfg]
    exact sessionHistory_congr hwin hpos hwritten h.history
  · rw [hlen]
    exact hraw

/-- A step that is as far as it was has committed the same session, or is not open. -/
theorem seen_of_pend_eq {s s' : State} (h : s'.pend = s.pend) : s'.seen = s.seen ∨ s'.seen = s'.sess := by
  cases hp : s.pend with
  | none => exact .inr (seen_of_none (h.trans hp))
  | some p => exact .inl ((seen_of_some (h.trans hp)).trans (seen_of_some hp).symm)

theorem inStep.awaited {s t : State} (h : inStep s t) : awaited t = awaited s := by
  obtain ⟨q, rfl, -⟩ := h
  rfl

theorem inStep.sess {s t : State} (h : inStep s t) : t.sess = s.sess := by
  obtain ⟨q, rfl, -⟩ := h
  rfl

/-- An operation that is the same in every surround and leaves what the fit speaks of keeps two runs in step. -/
theorem inStep_map {s t : State} (h : inStep s t) (f : State → State) (hput : ∀ q : Surround, f (q.put s) = q.put (f s))
    (hbasis : runBasis (f s) = runBasis s)
    (hds : (f s).sess.ds ≠ .rawCopy ∨ (f s).sess.ds = s.sess.ds ∧ (f s).sess.decSize = s.sess.decSize)
    (hseen : (f s).seen = s.seen ∨ (f s).seen = (f s).sess) : inStep (f s) (f t) := by
  obtain ⟨q, rfl, hq⟩ := h
  refine ⟨q, hput q, hq.of_kept hbasis (fun hraw => ?_) hseen⟩
  obtain hds | ⟨hds, hsize⟩ := hds
  · exact absurd hraw hds
  · rw [hsize]
    exact hq.payload (hds ▸ hraw)

theorem begin_put (q : Surround) (s : State) : begin (q.put s) = q.put (begin s) := by
  rw [begin_eq_record, begin_eq_record]
  rfl

theorem inStep_begin {s t : State} (h : inStep s t) : inStep (begin s) (begin t) := by
  refine inStep_map h begin (begin_put · s) ?_ ?_ (.inl (seen_begin s))
  · rw [begin_eq_record]
  · rw [begin_sess]
    exact .inr ⟨rfl, rfl⟩

theorem inStep_setReader {s t : State} (h : inStep s t) (c : Nat) (bits : List QBit) :
    inStep (s.setReader c bits) (t.setReader c bits) :=
  inStep_map h (·.setReader c bits) (fun _ => rfl) rfl (.inr ⟨rfl, rfl⟩) (seen_of_pend_eq rfl)

theorem inStep_await {s t : State} (h : inStep s t) (c : Ctx) : inStep (await c s) (await c t) :=
  inStep_map h (await c) (fun _ => rfl) rfl (.inr ⟨rfl, rfl⟩) (.inl rfl)

/-! ## Pieces of pseudocode in step -/

/-- Two results in step: the same value, fault or refusal, and states related by `R`. -/
def Res.paired {α : Type} (R : State → State → Prop) : Res α → Res α → Prop
  | .ok a s, .ok b t => a = b ∧ R s t
  | .raise e _, .raise e' _ => e = e'
  | .refuse k, .refuse k' => k = k'
  | _, _ => False

/-- The pseudocode keeps two runs in step. -/
def Lockstep {α : Type} (f : State → Res α) : Prop := ∀ s t, inStep s t → (f s).paired inStep (f t)

theorem Res.paired_bind {α β : Type} {x y : Res α} {f g : α → State → Res β} (h : x.paired inStep y)
    (hf : ∀ a s t, inStep s t → (f a s).paired inStep (g a t)) : (x.bind f).paired inStep (y.bind g) := by
  cases x with
  | ok a s =>
    cases y with
    | ok b t =>
      obtain ⟨rfl, h⟩ := h
      exact hf a s t h
    | raise | refuse => exact h.elim
  | raise e d =>
    cases y with
    | raise => exact h
    | ok | refuse => exact h.elim
  | refuse k =>
    cases y with
    | refuse => exact h
    | ok | raise => exact h.elim

theorem lockstep_bind {α β : Type} {f : State → Res α} {g : α → State → Res β} (hf : Lockstep f)
    (hg : ∀ a, Lockstep (g a)) : Lockstep fun s => (f s).bind g :=
  fun s t h => Res.paired_bind (hf s t h) fun a s t h => hg a s t h

theorem lockstep_ok {α : Type} (a : α) : Lockstep (.ok a) := fun _ _ h => ⟨rfl, h⟩

theorem lockstep_raise {α : Type} (e : SessionError) : Lockstep fun s => (.raise e s.draws : Res α) := fun _ _ _ => rfl

/-- A test of what both runs share. -/
theorem Res.paired_ite {α : Type} {s t : State} (h : inStep s t) {c : State → Prop} [DecidablePred c]
    {f g : State → Res α} (hc : ∀ (q : Surround) s, c (q.put s) ↔ c s) (hf : c s → (f s).paired inStep (f t))
    (hg : ¬ c s → (g s).paired inStep (g t)) :
    (if c s then f s else g s).paired inStep (if c t then f t else g t) := by
  have hct : c t ↔ c s := by
    obtain ⟨q, rfl, -⟩ := h
    exact hc q s
  by_cases hs : c s
  · rw [if_pos hs, if_pos (hct.mpr hs)]
    exact hf hs
  · rw [if_neg hs, if_neg (mt hct.mp hs)]
    exact hg hs

/-- A check that raises a fault. -/
theorem Res.paired_check {α : Type} {c d : Prop} [Decidable c] [Decidable d] {e : SessionError} {m n : Nat} {x y : Res α}
    (hcd : d ↔ c) (h : ¬ c → x.paired inStep y) :
    (if c then .raise e m else x).paired inStep (if d then .raise e n else y) := by
  by_cases hc : c
  · rw [if_pos hc, if_pos (hcd.mpr hc)]
    rfl
  · rw [if_neg hc, if_neg (mt hcd.mp hc)]
    exact h hc

theorem lockstep_ite {α : Type} {c : State → Prop} [DecidablePred c] {f g : State → Res α}
    (hc : ∀ (q : Surround) s, c (q.put s) ↔ c s) (hf : Lockstep f) (hg : Lockstep g) :
    Lockstep fun s => if c s then f s else g s :=
  fun s t h => Res.paired_ite h hc (fun _ => hf s t h) fun _ => hg s t h

/-! ## The bit reader -/

/-- A byte of the file is the same in both runs, and reading it draws nothing. -/
theorem readIn_of_fits {q : Surround} {s : State} (h : q.Fits s) {a : Nat} (ha : a < s.inLen) :
    ∃ b, s.readIn a = (b, s) ∧ (q.put s).readIn a = (b, q.put s) := by
  obtain ⟨b, hs, ht⟩ := h.file a ha
  exact ⟨b, readIn_some hs, readIn_some ht⟩

theorem frameByte_of_fits {q : Surround} {s : State} (h : q.Fits s) (i : Nat) :
    ∃ b, frameByte i s = (b, s) ∧ frameByte i (q.put s) = (b, q.put s) := by
  unfold frameByte
  by_cases hi : i < s.sess.frameLen
  · have hframe := h.frame
    obtain ⟨b, hs, ht⟩ := readIn_of_fits h (a := s.sess.frameBase + i) (by omega)
    exact ⟨b, (if_pos hi).trans hs, (if_pos (by exact hi)).trans ht⟩
  · exact ⟨0, if_neg hi, if_neg (by exact hi)⟩

theorem inStep_fetchWord {s t : State} (h : inStep s t) : inStep (fetchWord s) (fetchWord t) := by
  have hstep := h
  obtain ⟨q, rfl, hq⟩ := h
  obtain ⟨lo, hlo, hlo'⟩ := frameByte_of_fits hq s.sess.rdC
  obtain ⟨hi, hhi, hhi'⟩ := frameByte_of_fits hq (s.sess.rdC + 1)
  have hs : fetchWord s = s.setReader (s.sess.rdC + 2)
      (s.sess.rdQ ++ wordBits (hi ++ lo : BitVec 16) (decide (s.sess.rdC < s.sess.frameLen))) := by
    simp only [fetchWord, hlo, hhi]
  have ht : fetchWord (q.put s) = (q.put s).setReader (s.sess.rdC + 2)
      (s.sess.rdQ ++ wordBits (hi ++ lo : BitVec 16) (decide (s.sess.rdC < s.sess.frameLen))) := by
    have hsess : (q.put s).sess = s.sess := rfl
    simp only [fetchWord, hsess, hlo', hhi']
  rw [hs, ht]
  exact inStep_setReader hstep _ _

theorem inStep_ensureLoop (fuel n : Nat) {s t : State} (h : inStep s t) :
    inStep (ensureLoop fuel n s) (ensureLoop fuel n t) := by
  induction fuel generalizing s t with
  | zero => exact h
  | succ fuel ih =>
    rw [ensureLoop, ensureLoop, h.sess]
    split
    · exact ih (inStep_fetchWord h)
    · exact h

theorem inStep_ensure (n : Nat) {s t : State} (h : inStep s t) : inStep (ensure n s) (ensure n t) :=
  inStep_ensureLoop n n h

theorem lockstep_peek (n : Nat) : Lockstep (peek n) := by
  intro s t h
  unfold peek
  rw [h.sess]
  split
  · rfl
  · exact ⟨rfl, h⟩

theorem lockstep_remove (n : Nat) : Lockstep (remove n) := by
  intro s t h
  unfold remove
  rw [h.sess]
  split
  · exact ⟨rfl, inStep_setReader h _ _⟩
  · rfl

theorem lockstep_readBits (n : Nat) : Lockstep (readBits n) := by
  intro s t h
  unfold readBits
  split
  · exact ⟨rfl, h⟩
  · exact Res.paired_bind (lockstep_peek n _ _ (inStep_ensure n h))
      fun v => lockstep_bind (lockstep_remove n) fun _ => lockstep_ok v

theorem lockstep_readFields (n k : Nat) : Lockstep (readFields n k) := by
  induction k with
  | zero => exact lockstep_ok []
  | succ k ih => exact lockstep_bind (lockstep_readBits n) fun v => lockstep_bind ih fun vs => lockstep_ok (v :: vs)

theorem inStep_align16 {s t : State} (h : inStep s t) : inStep (align16 s) (align16 t) := by
  have he := inStep_ensure 16 h
  unfold align16
  dsimp only
  rw [he.sess]
  exact inStep_setReader he _ _

theorem lockstep_readByte : Lockstep readByte := by
  intro s t h
  have hstep := h
  obtain ⟨q, rfl, hq⟩ := h
  unfold readByte
  by_cases hl : s.sess.frameLen ≤ s.sess.rdC
  · rw [if_pos hl, if_pos (by exact hl)]
    rfl
  · have hframe := hq.frame
    obtain ⟨b, hs, ht⟩ := readIn_of_fits hq (a := s.sess.frameBase + s.sess.rdC) (by omega)
    have hsess : (q.put s).sess = s.sess := rfl
    rw [if_neg hl, if_neg (by exact hl)]
    simp only [hsess, hs, ht]
    exact ⟨rfl, inStep_setReader hstep _ _⟩

theorem lockstep_readWord32 : Lockstep readWord32 :=
  lockstep_bind lockstep_readByte fun b0 => lockstep_bind lockstep_readByte fun b1 =>
    lockstep_bind lockstep_readByte fun b2 => lockstep_bind lockstep_readByte fun b3 => lockstep_ok (le32 b0 b1 b2 b3)

theorem lockstep_readBlockLen : Lockstep readBlockLen :=
  lockstep_bind (lockstep_readBits 16) fun hi => lockstep_bind (lockstep_readBits 8) fun lo =>
    lockstep_ok (hi * 256 + lo)

theorem inStep.lens {s t : State} (h : inStep s t) (tr : Tree) : tr.lens t = tr.lens s := by
  cases tr <;> simp only [Tree.lens, h.sess]

theorem lockstep_decodeSymbol (tr : Tree) : Lockstep (decodeSymbol tr) := by
  intro s t h
  unfold decodeSymbol
  rw [h.lens tr]
  split
  · rfl
  · refine Res.paired_bind (lockstep_peek 16 _ _ (inStep_ensure 16 h)) fun v s' t' h' => ?_
    cases findSymbol (tr.lens s) v with
    | none => rfl
    | some sl => exact Res.paired_bind (lockstep_remove sl.2 s' t' h') fun _ => lockstep_ok sl.1

theorem lockstep_build (tr : Tree) : Lockstep (build tr) := by
  intro s t h
  unfold build
  rw [h.lens tr]
  split
  · exact ⟨rfl, h⟩
  · rfl

end Sys2Proof.Machine
end

section
/-! SUPPORT. Two runs in step: every element of the engine keeps them so. -/

namespace Sys2Proof.Machine

/-! ## The ends of an element -/

/-- Pseudocode that first looks at what both runs share. -/
theorem lockstep_shared {α β : Type} (v : State → β) (hv : ∀ (q : Surround) s, v (q.put s) = v s)
    {f : β → State → Res α} (hf : ∀ b, Lockstep (f b)) : Lockstep fun s => f (v s) s := by
  intro s t h
  have hvt : v t = v s := by
    obtain ⟨q, rfl, -⟩ := h
    exact hv q s
  simp only [hvt]
  exact hf (v s) s t h

/-- Pseudocode behind an operation that keeps two runs in step. -/
theorem lockstep_comp {α : Type} {g : State → State} {f : State → Res α}
    (hg : ∀ s t, inStep s t → inStep (g s) (g t)) (hf : Lockstep f) : Lockstep fun s => f (g s) :=
  fun s t h => hf _ _ (hg s t h)

theorem lockstep_await (c : Ctx) : Lockstep fun s => .ok () (await c s) := fun _ _ h => ⟨rfl, inStep_await h c⟩

theorem reinit_put (q : Surround) (s : State) : reinit (q.put s) = q.put (reinit s) := rfl

theorem inStep_reinit {s t : State} (h : inStep s t) : inStep (reinit s) (reinit t) :=
  inStep_map h reinit (reinit_put · s) rfl (.inr ⟨rfl, rfl⟩) (seen_of_pend_eq rfl)

theorem inStep_blockEnd {s t : State} (h : inStep s t) : inStep (blockEnd s) (blockEnd t) := by
  unfold blockEnd
  rw [h.sess]
  split
  · exact inStep_reinit h
  · exact h

theorem inStep_commit {s t : State} (h : inStep s t) : inStep (commit s) (commit t) :=
  inStep_map h commit (fun _ => rfl) rfl (.inr ⟨rfl, rfl⟩) (.inr rfl)

theorem inStep_goto {s t : State} (h : inStep s t) {d : DState} (hd : d ≠ .rawCopy) : inStep (s.goto d) (t.goto d) :=
  inStep_map h (·.goto d) (fun _ => rfl) rfl (.inl hd) (seen_of_pend_eq rfl)

theorem inStep_frameEnd {s t : State} (h : inStep s t) : inStep (frameEnd s) (frameEnd t) :=
  inStep_map h frameEnd (fun _ => rfl) rfl (.inl nofun) (seen_of_pend_eq rfl)

theorem inStep_afterElement {s t : State} (h : inStep s t) : inStep (afterElement s) (afterElement t) := by
  unfold afterElement
  rw [h.sess]
  split
  · exact inStep_commit (inStep_frameEnd h)
  · split
    · exact inStep_commit (inStep_goto h nofun)
    · exact inStep_commit h

/-- Where an element's step goes when its bytes are counted. -/
theorem inStep_settled {s t : State} (h : inStep s t) :
    inStep (if s.sess.blockRem = 0 then if oddPadDue s then await .oddPad s else afterElement (blockEnd s)
        else afterElement s)
      (if t.sess.blockRem = 0 then if oddPadDue t then await .oddPad t else afterElement (blockEnd t)
        else afterElement t) := by
  have hpad : oddPadDue t = oddPadDue s := by
    obtain ⟨q, rfl, -⟩ := h
    rfl
  rw [h.sess, hpad]
  split
  · split
    · exact inStep_await h .oddPad
    · exact inStep_afterElement (inStep_blockEnd h)
  · exact inStep_afterElement h

theorem inStep_account (k : Nat) {s t : State} (h : inStep s t) : inStep (account k s) (account k t) := by
  have hu := inStep_map h (fun u => { u with sess := { u.sess with
    blockRem := u.sess.blockRem - k, frameRem := u.sess.frameRem - k } }) (fun _ => rfl) rfl (.inr ⟨rfl, rfl⟩)
    (seen_of_pend_eq rfl)
  exact inStep_settled hu

theorem inStep_headerTail (b : BlockHdr) {d : DState} (hd : d ≠ .rawCopy) {s t : State} (h : inStep s t) :
    inStep (headerTail b d s) (headerTail b d t) := by
  have hu := inStep_map h (fun u => { u with sess := { u.sess with
    blockType := b.type, blockLen := b.len, blockRem := b.len } }) (fun _ => rfl) rfl (.inr ⟨rfl, rfl⟩)
    (seen_of_pend_eq rfl)
  unfold headerTail
  dsimp only
  split
  · exact inStep_commit (inStep_goto (inStep_blockEnd hu) nofun)
  · exact inStep_commit (inStep_goto hu hd)

/-! ## The tree passes -/

theorem inStep_setArr (p : Pass) (arr : List Nat) {s t : State} (h : inStep s t) :
    inStep (p.setArr arr s) (p.setArr arr t) := by
  cases p <;> exact inStep_map h (Pass.setArr _ arr) (fun _ => rfl) rfl (.inr ⟨rfl, rfl⟩) (seen_of_pend_eq rfl)

theorem lockstep_passEnd (b : BlockHdr) (p : Pass) : Lockstep (passEnd b p) := by
  cases p with
  | mainLow => exact lockstep_await _
  | mainHigh =>
    exact lockstep_bind (lockstep_build .main) fun _ => lockstep_await _
  | lengths =>
    refine lockstep_bind (lockstep_build .len) fun _ =>
      lockstep_comp (fun _ _ h => inStep_headerTail b ?_ h) (lockstep_ok ())
    unfold treeDecState
    split <;> nofun

theorem lockstep_passContinue (b : BlockHdr) (p : Pass) (x : Nat) : Lockstep (passContinue b p x) :=
  lockstep_ite (c := fun s => x < p.last s.cfg) (fun _ _ => Iff.rfl)
    (lockstep_await _) (lockstep_passEnd b p)

theorem Pass.arr_put (p : Pass) (q : Surround) (s : State) : p.arr (q.put s) = p.arr s := by cases p <;> rfl

theorem lockstep_passWrite (b : BlockHdr) (p : Pass) (x k v : Nat) : Lockstep (passWrite b p x k v) :=
  lockstep_shared (p.arr ·) p.arr_put (f := fun arr s => passContinue b p (x + k) (p.setArr (fillEntries arr x k v) s))
    fun _ => lockstep_comp (fun _ _ h => inStep_setArr p _ h) (lockstep_passContinue b p (x + k))

/-- The entries of a pass at a value of the array before. -/
theorem lockstep_passDelta (b : BlockHdr) (p : Pass) (x k z : Nat) :
    Lockstep fun s => passWrite b p x k (deltaMod17 (oldLength p x s) z) s :=
  lockstep_shared (oldLength p x) (fun q s => congrArg (·.getD x 0) (p.arr_put q s))
    fun old => lockstep_passWrite b p x k (deltaMod17 old z)

theorem lockstep_zeroRun (n k0 : Nat) : Lockstep (zeroRun n k0) := by
  intro s t h
  unfold zeroRun
  rw [h.awaited]
  generalize awaited s = c
  cases c with
  | preSym b p x =>
    exact lockstep_bind (lockstep_readBits n) (fun f => lockstep_ite (c := fun s => p.last s.cfg < x + (f + k0))
      (fun _ _ => Iff.rfl) (lockstep_raise _) (lockstep_passWrite b p x (f + k0) 0)) s t h
  | _ => rfl

/-! ## The output -/

/-- A write of the same byte of `OUT` in both runs. -/
theorem get?_set_congr {m m' : Memory} {a c : Nat} (b : Byte) (h : c ≠ a → m'.get? c = m.get? c) :
    (m'.set a b).get? c = (m.set a b).get? c := by
  by_cases hc : c = a
  · rw [hc, Memory.get?_set_self, Memory.get?_set_self]
  · rw [Memory.get?_set_ne _ _ hc, Memory.get?_set_ne _ _ hc, h hc]

theorem inStep_emit (b : Byte) {s t : State} (h : inStep s t) : inStep (emit b s) (emit b t) := by
  obtain ⟨q, rfl, hq⟩ := h
  refine ⟨{ q with out := q.out.set s.sess.produced b }, rfl, hq.alone, hq.file, hq.frame,
    sessionHistory_emit b hq.history, hq.payload, fun a ha => get?_set_congr b fun hne => hq.output a ?_⟩
  have hprod : (emit b s).sess.produced = s.sess.produced + 1 := rfl
  obtain hseen | hseen := seen_of_pend_eq (s := s) (s' := emit b s) rfl
  · rw [hseen] at ha
    exact ha.imp_left fun h => by omega
  · rw [hseen] at ha
    exact .inl (by omega)

/-- A copy reads written cells of the window alone. -/
theorem inStep_copyMatch (n : Nat) {off : Nat} (h0 : 0 < off) {s t : State} (h : inStep s t)
    (hoff : off ≤ s.sess.written) : inStep (copyMatch n off s) (copyMatch n off t) := by
  induction n generalizing s t with
  | zero => exact h
  | succ n ih =>
    have hstep := h
    obtain ⟨q, rfl, hq⟩ := h
    obtain ⟨hidx, b, hb⟩ := windowIndex_eq_copySource hq.history h0 hoff
    rw [← hidx] at hb
    have hs : copyMatch (n + 1) off s = copyMatch n off (emit b s) := by rw [copyMatch, readCell_some hb]
    have ht : copyMatch (n + 1) off (q.put s) = copyMatch n off (emit b (q.put s)) := by
      rw [copyMatch]
      exact congrArg (fun r => copyMatch n off (emit r.1 r.2)) (readCell_some (s := q.put s) hb)
    rw [hs, ht]
    obtain ⟨-, hcap, -⟩ := hq.history
    exact ih (inStep_emit b hstep) (le_min (Nat.le_succ_of_le hoff) (hoff.trans hcap))

theorem lockstep_finishMatch (len off : Nat) (r : Word × Word × Word) : Lockstep (finishMatch len off r) := by
  intro s t h
  have hcheck : checkMatch len off t = checkMatch len off s := by
    obtain ⟨q, rfl, -⟩ := h
    rfl
  unfold finishMatch
  rw [hcheck]
  cases hc : checkMatch len off s with
  | some e => rfl
  | none =>
    obtain ⟨-, -, h0, -, hoff⟩ := (checkMatch_eq_none len off s).mp hc
    exact ⟨rfl, inStep_account len (inStep_map (inStep_copyMatch len h0 h hoff) (·.setR r.1 r.2.1 r.2.2) (fun _ => rfl)
      rfl (.inr ⟨rfl, rfl⟩) (seen_of_pend_eq rfl))⟩

/-- A match whose offset and registers come from the session. -/
theorem lockstep_finishMatch_of (len : Nat) (v : State → Nat × Word × Word × Word)
    (hv : ∀ (q : Surround) s, v (q.put s) = v s) : Lockstep fun s => finishMatch len (v s).1 (v s).2 s :=
  lockstep_shared v hv (f := fun x => finishMatch len x.1 x.2) fun x => lockstep_finishMatch len x.1 x.2

theorem lockstep_finishExplicit (len off : Nat) : Lockstep (finishExplicit len off) :=
  lockstep_finishMatch_of len (fun s => (off, BitVec.ofNat 32 off, s.sess.r0, s.sess.r1)) fun _ _ => rfl

theorem lockstep_matchOffset (slot len : Nat) : Lockstep (matchOffset slot len) :=
  lockstep_ite (c := fun _ => slot = 0) (fun _ _ => Iff.rfl)
    (lockstep_finishMatch_of len (fun s => (s.sess.r0.toNat, s.sess.r0, s.sess.r1, s.sess.r2)) fun _ _ => rfl) <|
  lockstep_ite (c := fun _ => slot = 1) (fun _ _ => Iff.rfl)
    (lockstep_finishMatch_of len (fun s => (s.sess.r1.toNat, s.sess.r1, s.sess.r0, s.sess.r2)) fun _ _ => rfl) <|
  lockstep_ite (c := fun _ => slot = 2) (fun _ _ => Iff.rfl)
    (lockstep_finishMatch_of len (fun s => (s.sess.r2.toNat, slot2Registers s)) fun _ _ => rfl) <|
  lockstep_ite (c := fun s => s.sess.blockType = 2 ∧ 3 ≤ extraBits slot) (fun _ _ => Iff.rfl)
    (lockstep_await _) <|
  lockstep_bind (lockstep_readBits (extraBits slot)) fun v => lockstep_finishExplicit len (slotBase slot - 2 + v)

theorem lockstep_matchSymbol (slot : Nat) (lh : BitVec 3) : Lockstep (matchSymbol slot lh) :=
  lockstep_ite (c := fun _ => lh.toNat = Config.numPrimaryLengths) (fun _ _ => Iff.rfl)
    (lockstep_await _) (lockstep_matchOffset slot _)

end Sys2Proof.Machine
end

section
/-! SUPPORT. A run depends on its launch alone (60_exceptions.md R177, 70_reset_and_hazards.md R188, R198): the elements
behind the container, the step, and the runs. -/

namespace Sys2Proof.Machine

/-! ## The container, raw copies, the frame headers -/

theorem readLe32_of_fits {q : Surround} {s : State} (h : q.Fits s) {a : Nat} (ha : a + 3 < s.inLen) :
    ∃ w, s.readLe32 a = (w, s) ∧ (q.put s).readLe32 a = (w, q.put s) := by
  obtain ⟨b0, h0, h0'⟩ := readIn_of_fits h (a := a) (by omega)
  obtain ⟨b1, h1, h1'⟩ := readIn_of_fits h (a := a + 1) (by omega)
  obtain ⟨b2, h2, h2'⟩ := readIn_of_fits h (a := a + 2) (by omega)
  obtain ⟨b3, h3, h3'⟩ := readIn_of_fits h (a := a + 3) (by omega)
  refine ⟨le32 b0 b1 b2 b3, ?_, ?_⟩
  · simp only [State.readLe32, h0, h1, h2, h3]
  · simp only [State.readLe32, h0', h1', h2', h3']

/-- The header fields, read from a file that holds them. -/
theorem inStep_commitHeader (platform version flags : Byte) {s t : State} (h : inStep s t) (hlen : 10 ≤ s.inLen) :
    inStep (commitHeader platform version flags s) (commitHeader platform version flags t) := by
  have hstep := h
  obtain ⟨q, rfl, hq⟩ := h
  obtain ⟨w, hs, ht⟩ := readLe32_of_fits hq (a := 6) (by omega)
  unfold commitHeader
  rw [hs, ht]
  exact inStep_map hstep (fun u => { u with
    hdrPlatform := platform, hdrVersion := version, hdrFlags := flags, hdrFileSize := w, compressed := flags.getLsbD 7
    sess := { u.sess with compressed := flags.getLsbD 7 } }) (fun _ => rfl) rfl (.inr ⟨rfl, rfl⟩) (seen_of_pend_eq rfl)

theorem frameStartGoto_lockstep : Lockstep frameStartGoto := by
  intro s t h
  have goto {d : DState} (hd : d ≠ .rawCopy) : inStep (commit (s.goto d)) (commit (t.goto d)) :=
    inStep_commit (inStep_goto h hd)
  unfold frameStartGoto
  rw [h.sess]
  split
  · exact ⟨rfl, goto nofun⟩
  · split
    · exact ⟨rfl, goto nofun⟩
    · cases hd : decStateOf s.sess.blockType with
      | none => rfl
      | some d =>
        refine ⟨rfl, goto ?_⟩
        obtain ⟨-, rfl⟩ | ⟨-, rfl⟩ | ⟨-, rfl⟩ := decStateOf_eq.mp hd <;> nofun

/-- A frame whose data the file holds starts in both runs. -/
theorem lockstep_frameStart (a hl bs fs : Nat) : Lockstep (frameStart a hl bs fs) := by
  rintro s _ ⟨q, rfl, hq⟩
  refine Res.paired_check Iff.rfl fun _ => Res.paired_check Iff.rfl fun _ => Res.paired_check Iff.rfl fun hdata => ?_
  exact frameStartGoto_lockstep _ _ ⟨q, rfl, hq.alone, hq.file, Nat.le_of_not_lt hdata, hq.history, hq.payload,
    hq.output_of rfl rfl (seen_of_pend_eq rfl)⟩

/-! ## The elements -/

/-- The engine is at rest in both runs, which ended alike. -/
def atRest (s t : State) : Prop := s.pend = none ∧ s.busy = false ∧ s.sched = [] ∧ t.sched = [] ∧ sameRun s t

/-- The other run answers as the one does. -/
def Follows (x y : Host.Outcome State Fault Refusal) : Prop :=
  ∀ s, x = .next s → ∃ t, y = .next t ∧ (inStep s t ∨ atRest s t)

/-- A fault ends both runs alike. -/
theorem atRest_takeFault (e : SessionError) (m n : Nat) {s t : State} (h : inStep s t) :
    atRest (takeFault e m s) (takeFault e n t) := by
  obtain ⟨q, rfl, hq⟩ := h
  exact ⟨rfl, rfl, hq.alone.1, hq.alone.2, rfl, fun a ha => hq.output a (.inr ha)⟩

/-- An element whose pseudocode keeps two runs in step. -/
theorem runElement_follows {s t : State} {f : State → Res Unit} (h : inStep s t)
    (hf : inStep (begin s) (begin t) → (f (begin s)).paired inStep (f (begin t))) :
    Follows (runElement s f) (runElement t f) := by
  have hb := inStep_begin h
  have hpair := hf hb
  unfold runElement
  generalize f (begin s) = x at hpair
  generalize f (begin t) = y at hpair
  intro s' hs'
  cases x with
  | ok a u =>
    cases y with
    | ok b v =>
      cases hs'
      exact ⟨v, rfl, .inl hpair.2⟩
    | raise | refuse => exact hpair.elim
  | raise e m =>
    cases y with
    | raise e' n =>
      cases hs'
      cases hpair
      exact ⟨_, rfl, .inr (atRest_takeFault e m n hb)⟩
    | ok | refuse => exact hpair.elim
  | refuse k => cases hs'

theorem Lockstep.follows {s t : State} {i : Instr} {f : State → Res Unit} (hf : Lockstep f)
    (hi : ∀ s, exec i s = runElement s f) (h : inStep s t) : Follows (exec i s) (exec i t) := by
  rw [hi, hi]
  exact runElement_follows h (hf _ _)

theorem frameStd_follows (h0 : Byte) {s t : State} (h : inStep s t) :
    Follows (exec (.frameStd h0) s) (exec (.frameStd h0) t) := by
  show Follows (execFrameStd h0 s) (execFrameStd h0 t)
  refine runElement_follows h fun hb => ?_
  generalize begin s = u at hb
  generalize begin t = v at hb
  have hstep := hb
  obtain ⟨q, rfl, hq⟩ := hb
  refine Res.paired_check Iff.rfl fun hlen => ?_
  obtain ⟨b, hs, ht⟩ := readIn_of_fits hq (a := u.sess.inPos + 1) (by omega)
  have hsess : (q.put u).sess = u.sess := rfl
  simp only [hsess, hs, ht]
  exact lockstep_frameStart _ _ _ _ _ _ hstep

theorem frameExt_follows {s t : State} (h : inStep s t) : Follows (exec .frameExt s) (exec .frameExt t) := by
  show Follows (execFrameExt s) (execFrameExt t)
  refine runElement_follows h fun hb => ?_
  generalize begin s = u at hb
  generalize begin t = v at hb
  have hstep := hb
  obtain ⟨q, rfl, hq⟩ := hb
  refine Res.paired_check Iff.rfl fun hlen => ?_
  obtain ⟨b1, h1, h1'⟩ := readIn_of_fits hq (a := u.sess.inPos + 1) (by omega)
  obtain ⟨b2, h2, h2'⟩ := readIn_of_fits hq (a := u.sess.inPos + 2) (by omega)
  obtain ⟨b3, h3, h3'⟩ := readIn_of_fits hq (a := u.sess.inPos + 3) (by omega)
  obtain ⟨b4, h4, h4'⟩ := readIn_of_fits hq (a := u.sess.inPos + 4) (by omega)
  have hsess : (q.put u).sess = u.sess := rfl
  simp only [hsess, h1, h1', h2, h2', h3, h3', h4, h4']
  exact lockstep_frameStart _ _ _ _ _ _ hstep

theorem contRaw_follows (platform version flags : Byte) {s t : State} (h : inStep s t) (hlen : 10 ≤ s.inLen) :
    Follows (exec (.contRaw platform version flags) s) (exec (.contRaw platform version flags) t) := by
  show Follows (execContRaw platform version flags s) (execContRaw platform version flags t)
  refine runElement_follows h fun hb => ?_
  rw [← begin_inLen] at hlen
  generalize begin s = u at hb hlen
  generalize begin t = v at hb
  have hheader := inStep_commitHeader platform version flags hb hlen
  obtain ⟨q, rfl, hq⟩ := hb
  refine Res.paired_check Iff.rfl fun _ => ?_
  generalize commitHeader platform version flags u = u' at hheader ⊢
  generalize commitHeader platform version flags (q.put u) = v' at hheader ⊢
  obtain ⟨q', rfl, hq'⟩ := hheader
  exact ⟨rfl, q', rfl, hq'.alone, hq'.file, hq'.frame, hq'.history, fun _ => Nat.le_refl _,
    hq'.output_of rfl rfl (.inr rfl)⟩

theorem contCompressed_follows (platform version flags : Byte) {s t : State} (h : inStep s t) :
    Follows (exec (.contCompressed platform version flags) s) (exec (.contCompressed platform version flags) t) := by
  show Follows (execContCompressed platform version flags s) (execContCompressed platform version flags t)
  refine runElement_follows h fun hb => ?_
  generalize begin s = u at hb
  generalize begin t = v at hb
  have hstep := hb
  obtain ⟨q, rfl, hq⟩ := hb
  refine Res.paired_check Iff.rfl fun hlen => ?_
  have hheader := inStep_commitHeader platform version flags hstep (by omega)
  have hkeep : (commitHeader platform version flags u).inLen = u.inLen := by rw [commitHeader_eq]
  generalize commitHeader platform version flags u = u' at hheader hkeep ⊢
  generalize commitHeader platform version flags (q.put u) = v' at hheader ⊢
  obtain ⟨q', rfl, hq'⟩ := hheader
  obtain ⟨w, hs, ht⟩ := readLe32_of_fits hq' (a := 10) (by omega)
  simp only [hs, ht]
  refine Res.paired_check Iff.rfl fun _ => ?_
  exact ⟨rfl, q', rfl, hq'.alone, hq'.file, hq'.frame, hq'.history, nofun,
    fun a ha => absurd (ha.elim id id) (Nat.not_lt_zero a)⟩

/-- A raw copy reads written bytes of the file alone, and writes the same bytes of `OUT` in both runs. -/
theorem rawCopy_follows {s t : State} (h : inStep s t) (hds : s.sess.ds = .rawCopy) :
    Follows (exec .rawCopy s) (exec .rawCopy t) := by
  intro s' hs'
  have hb := inStep_begin h
  obtain ⟨q, rfl, hq⟩ := h
  rw [exec_rawCopy] at hs' ⊢
  cases hs'
  obtain ⟨-, hsbyte, hsrest⟩ := copyPayload_out s.sess.decSize 0 (begin s)
  obtain ⟨-, htbyte, htrest⟩ := copyPayload_out s.sess.decSize 0 (begin (q.put s))
  have hsize := hq.payload hds
  refine ⟨_, rfl, .inl ⟨{ q with
    out := (copyPayload s.sess.decSize 0 (begin (q.put s))).out
    draws := (copyPayload s.sess.decSize 0 (begin (q.put s))).draws }, rfl, hq.alone, hq.file, hq.frame, hq.history, nofun,
    fun a ha => ?_⟩⟩
  have ha : a < s.sess.decSize := ha.elim id id
  obtain ⟨b, hbs, hbt⟩ := hq.file (10 + a) (by omega)
  have hs := hsbyte a b (Nat.zero_le a) (by omega) (by rw [begin_inp]; exact hbs)
  have ht := htbyte a b (Nat.zero_le a) (by omega) (by rw [begin_inp]; exact hbt)
  exact ht.trans hs.symm

theorem e8Off_follows {s t : State} (h : inStep s t) : Follows (exec .e8Off s) (exec .e8Off t) := by
  show Follows (execE8Off s) (execE8Off t)
  refine runElement_follows h fun hb => ⟨rfl, ?_⟩
  exact inStep_map hb (fun s => commit (State.goto { s with
    sess := { s.sess with e8Present := false, e8Size := 0, headerRead := true }, e8Present := false } .blockHdr))
    (fun _ => rfl) rfl (.inl nofun) (.inr rfl)

theorem e8On_follows {s t : State} (h : inStep s t) : Follows (exec .e8On s) (exec .e8On t) := by
  show Follows (execE8On s) (execE8On t)
  refine runElement_follows h fun hb => Res.paired_bind (lockstep_readBits 16 _ _ hb) fun hi u v h =>
    Res.paired_bind (lockstep_readBits 16 u v h) fun lo u v h => ⟨rfl, ?_⟩
  exact inStep_map h (fun s => commit (State.goto { s with
    sess := { s.sess with e8Present := true, e8Size := BitVec.ofNat 32 (hi * 65536 + lo), headerRead := true }
    e8FileSize := BitVec.ofNat 32 (hi * 65536 + lo), e8Present := true } .blockHdr))
    (fun _ => rfl) rfl (.inl nofun) (.inr rfl)

theorem alignedLens_follows {s t : State} (h : inStep s t) : Follows (exec .alignedLens s) (exec .alignedLens t) := by
  show Follows (execAlignedLens s) (execAlignedLens t)
  refine runElement_follows h fun hb => ?_
  rw [hb.awaited]
  cases awaited (begin s) with
  | alignedLens b =>
    exact Res.paired_bind (lockstep_readFields 3 _ _ _ hb) fun ls u v h =>
      Res.paired_bind (lockstep_build .aligned _ _ (inStep_map h (fun s => { s with sess := { s.sess with alLen := ls } })
        (fun _ => rfl) rfl (.inr ⟨rfl, rfl⟩) (seen_of_pend_eq rfl))) fun _ => lockstep_await _
  | _ => rfl

theorem pretree_follows {s t : State} (h : inStep s t) : Follows (exec .pretree s) (exec .pretree t) := by
  show Follows (execPretree s) (execPretree t)
  refine runElement_follows h fun hb => ?_
  rw [hb.awaited]
  cases awaited (begin s) with
  | pretree b p =>
    exact Res.paired_bind (lockstep_readFields 4 _ _ _ hb) fun ls u v h =>
      Res.paired_bind (lockstep_build .pre _ _ (inStep_map h (fun s => { s with sess := { s.sess with preLen := ls } })
        (fun _ => rfl) rfl (.inr ⟨rfl, rfl⟩) (seen_of_pend_eq rfl))) fun _ => lockstep_passContinue b p p.first
  | _ => rfl

theorem preDelta_follows (z : BitVec 5) {s t : State} (h : inStep s t) :
    Follows (exec (.preDelta z) s) (exec (.preDelta z) t) := by
  show Follows (execPreDelta z s) (execPreDelta z t)
  refine runElement_follows h fun hb => ?_
  rw [hb.awaited]
  cases awaited (begin s) with
  | preSym b p x => exact lockstep_passDelta b p x 1 z.toNat _ _ hb
  | _ => rfl

theorem preRepeat_follows {s t : State} (h : inStep s t) : Follows (exec .preRepeat s) (exec .preRepeat t) := by
  show Follows (execPreRepeat s) (execPreRepeat t)
  refine runElement_follows h fun hb => ?_
  rw [hb.awaited]
  cases awaited (begin s) with
  | preSym b p x =>
    refine Res.paired_bind (lockstep_readBits 1 _ _ hb) fun f => lockstep_ite
      (c := fun s => p.last s.cfg < x + (f + 4)) (fun _ _ => Iff.rfl) (lockstep_raise _) ?_
    exact lockstep_bind (lockstep_decodeSymbol .pre) fun z => lockstep_ite (c := fun _ => 16 < z) (fun _ _ => Iff.rfl)
      (lockstep_raise _) (lockstep_passDelta b p x (f + 4) z)
  | _ => rfl

theorem lenFooter_follows {s t : State} (h : inStep s t) : Follows (exec .lenFooter s) (exec .lenFooter t) := by
  show Follows (execLenFooter s) (execLenFooter t)
  refine runElement_follows h fun hb => ?_
  rw [hb.awaited]
  cases awaited (begin s) with
  | lenFooter slot =>
    exact Res.paired_bind (lockstep_decodeSymbol .len _ _ hb) fun v => lockstep_matchOffset slot (longLength v)
  | _ => rfl

theorem alignedSym_follows {s t : State} (h : inStep s t) : Follows (exec .alignedSym s) (exec .alignedSym t) := by
  show Follows (execAlignedSym s) (execAlignedSym t)
  refine runElement_follows h fun hb => ?_
  rw [hb.awaited]
  cases awaited (begin s) with
  | alignedSym slot len =>
    exact Res.paired_bind (lockstep_readBits _ _ _ hb) fun hi =>
      lockstep_bind (lockstep_decodeSymbol .aligned) fun a => lockstep_finishExplicit len (slotBase slot - 2 + hi * 8 + a)
  | _ => rfl

theorem uncompAlignR_follows {s t : State} (h : inStep s t) : Follows (exec .uncompAlignR s) (exec .uncompAlignR t) := by
  show Follows (execUncompAlignR s) (execUncompAlignR t)
  refine runElement_follows h fun hb => ?_
  rw [hb.awaited]
  cases awaited (begin s) with
  | uncompAlignR b =>
    refine Res.paired_bind (lockstep_readWord32 _ _ (inStep_align16 hb)) fun r0 => lockstep_bind lockstep_readWord32
      fun r1 => lockstep_bind lockstep_readWord32 fun r2 u v h => ⟨rfl, inStep_headerTail b (d := .decUncomp) nofun ?_⟩
    exact inStep_map h (·.setR r0 r1 r2) (fun _ => rfl) rfl (.inr ⟨rfl, rfl⟩) (seen_of_pend_eq rfl)
  | _ => rfl

theorem oddPad_follows {s t : State} (h : inStep s t) : Follows (exec .oddPad s) (exec .oddPad t) := by
  show Follows (execOddPad s) (execOddPad t)
  refine runElement_follows h fun hb => ?_
  rw [hb.awaited]
  cases awaited (begin s) with
  | oddPad =>
    rw [hb.sess]
    exact ⟨rfl, inStep_afterElement (inStep_reinit (inStep_setReader hb _ _))⟩
  | _ => rfl

/-- A literal or a raw byte. -/
theorem emit_lockstep (b : Byte) : Lockstep fun s => .ok () (account 1 (emit b s)) :=
  fun _ _ h => ⟨rfl, inStep_account 1 (inStep_emit b h)⟩

/-- A block header whose type names its next element. -/
theorem blockHeader_lockstep (c : Nat → Ctx) : Lockstep fun s => (readBlockLen s).bind fun n s => .ok () (await (c n) s) :=
  lockstep_bind lockstep_readBlockLen fun n => lockstep_await (c n)

/-- Every element of the engine keeps two runs in step, or ends both alike. -/
theorem exec_follows {i : Instr} {s t : State} (hhost : isHost i = false) (h : inStep s t)
    (hraw : i = .rawCopy → s.sess.ds = .rawCopy)
    (hcont : ∀ platform version flags, i = .contRaw platform version flags → 10 ≤ s.inLen) :
    Follows (exec i s) (exec i t) := by
  cases i with
  | contRaw platform version flags => exact contRaw_follows _ _ _ h (hcont _ _ _ rfl)
  | contCompressed platform version flags => exact contCompressed_follows _ _ _ h
  | contBadmagic magic => exact (lockstep_raise .badMagic).follows (fun _ => rfl) h
  | rawCopy => exact rawCopy_follows h (hraw rfl)
  | frameExt => exact frameExt_follows h
  | frameStd h0 => exact frameStd_follows h0 h
  | e8Off => exact e8Off_follows h
  | e8On => exact e8On_follows h
  | blkVerbatim => exact (blockHeader_lockstep fun n => .pretree ⟨1, n⟩ .mainLow).follows (fun _ => rfl) h
  | blkAligned => exact (blockHeader_lockstep fun n => .alignedLens ⟨2, n⟩).follows (fun _ => rfl) h
  | blkUncomp => exact (blockHeader_lockstep fun n => .uncompAlignR ⟨3, n⟩).follows (fun _ => rfl) h
  | blkInvalid type =>
    exact (lockstep_bind lockstep_readBlockLen fun _ => lockstep_raise (.blockType type)).follows (fun _ => rfl) h
  | alignedLens => exact alignedLens_follows h
  | pretree => exact pretree_follows h
  | preDelta z => exact preDelta_follows z h
  | preZeroShort => exact (lockstep_zeroRun 4 4).follows (fun _ => rfl) h
  | preZeroLong => exact (lockstep_zeroRun 5 20).follows (fun _ => rfl) h
  | preRepeat => exact preRepeat_follows h
  | mainLiteral b | rawByte b => exact (emit_lockstep b).follows (fun _ => rfl) h
  | matchR0 lh | matchR1 lh | matchR2 lh | matchS3 lh | matchS4 lh | matchS5 lh | matchS6 lh | matchS7 lh | matchS8 lh
  | matchS9 lh | matchS10 lh | matchS11 lh | matchS12 lh | matchS13 lh | matchS14 lh | matchS15 lh | matchS16 lh
  | matchS17 lh | matchS18 lh | matchS19 lh | matchS20 lh | matchS21 lh | matchS22 lh | matchS23 lh | matchS24 lh
  | matchS25 lh | matchS26 lh | matchS27 lh | matchS28 lh | matchS29 lh | matchS30 lh | matchS31 lh | matchS32 lh
  | matchS33 lh | matchS34 lh | matchS35 lh => exact (lockstep_matchSymbol _ lh).follows (fun _ => rfl) h
  | lenFooter => exact lenFooter_follows h
  | alignedSym => exact alignedSym_follows h
  | uncompAlignR => exact uncompAlignR_follows h
  | oddPad => exact oddPad_follows h
  | csrRead | csrWrite | start | softReset | irqEn | w1c | inLen | inWrite | inRead | outRead | outWrite | busError =>
    cases hhost

end Sys2Proof.Machine
end

section
/-! SUPPORT. A run depends on its launch alone (60_exceptions.md R177, 70_reset_and_hazards.md R188, R198): the step and the
runs. -/

namespace Sys2Proof.Machine

/-! ## The words -/

/-- Two readings of the next word in step. -/
def selectedAlike : Option (Res Fetched) → Option (Res Fetched) → Prop
  | some x, some y => x.paired inStep y
  | none, none => True
  | _, _ => False

theorem lockstep_fetchContainer : Lockstep fetchContainer := by
  intro s t h
  have hstep := h
  obtain ⟨q, rfl, hq⟩ := h
  unfold fetchContainer
  refine Res.paired_check Iff.rfl fun hlen => ?_
  obtain ⟨b0, h0, h0'⟩ := readIn_of_fits hq (a := 0) (by omega)
  obtain ⟨b1, h1, h1'⟩ := readIn_of_fits hq (a := 1) (by omega)
  obtain ⟨b2, h2, h2'⟩ := readIn_of_fits hq (a := 2) (by omega)
  have hcfg : (q.put s).cfg = s.cfg := rfl
  simp only [h0, h0', h1, h1', h2, h2', hcfg]
  split
  · exact ⟨rfl, hstep⟩
  · refine Res.paired_check Iff.rfl fun hlen => ?_
    obtain ⟨b3, h3, h3'⟩ := readIn_of_fits hq (a := 3) (by omega)
    obtain ⟨b4, h4, h4'⟩ := readIn_of_fits hq (a := 4) (by omega)
    obtain ⟨b5, h5, h5'⟩ := readIn_of_fits hq (a := 5) (by omega)
    simp only [h3, h3', h4, h4', h5, h5']
    exact ⟨rfl, hstep⟩

theorem lockstep_fetchFrame : Lockstep fetchFrame := by
  intro s t h
  have hstep := h
  obtain ⟨q, rfl, hq⟩ := h
  refine Res.paired_check Iff.rfl fun hlen => ?_
  obtain ⟨b, hs, ht⟩ := readIn_of_fits hq (a := s.sess.inPos) (by omega)
  have hsess : (q.put s).sess = s.sess := rfl
  simp only [hsess, hs, ht]
  exact ⟨rfl, hstep⟩

theorem lockstep_fetchMain : Lockstep fetchMain :=
  lockstep_bind (lockstep_decodeSymbol .main) fun m => lockstep_ok (Fetched.mainSym (BitVec.ofNat 10 m))

theorem fetchByState_alike {s t : State} (h : inStep s t) : selectedAlike (fetchByState s) (fetchByState t) := by
  unfold fetchByState
  rw [h.sess]
  cases s.sess.ds with
  | idle | done | failed => trivial
  | container => exact lockstep_fetchContainer s t h
  | rawCopy => exact ⟨rfl, h⟩
  | frameHdr => exact lockstep_fetchFrame s t h
  | streamHdr => exact lockstep_bind (lockstep_readBits 1) (fun v => lockstep_ok _) s t h
  | blockHdr => exact lockstep_bind (lockstep_readBits 3) (fun v => lockstep_ok _) s t h
  | decVerbatim | decAligned => exact lockstep_fetchMain s t h
  | decUncomp => exact lockstep_bind lockstep_readByte (fun b => lockstep_ok _) s t h

theorem fetchByContext_alike (c : Ctx) {s t : State} (h : inStep s t) :
    selectedAlike (fetchByContext c s) (fetchByContext c t) := by
  cases c with
  | started => trivial
  | preSym => exact lockstep_bind (lockstep_decodeSymbol .pre) (fun z => lockstep_ok _) s t h
  | alignedLens | pretree | lenFooter | alignedSym | uncompAlignR | oddPad => exact ⟨rfl, h⟩

theorem inStep.pend {s t : State} (h : inStep s t) : t.pend = s.pend := by
  obtain ⟨q, rfl, -⟩ := h
  rfl

theorem selector_alike {s t : State} (h : inStep s t) : selectedAlike (selector s) (selector t) := by
  unfold selector
  rw [h.pend]
  cases s.pend with
  | none => exact fetchByState_alike (inStep_begin h)
  | some p => exact fetchByContext_alike p.ctx h

/-! ## The step -/

/-- A container is accepted in a file of 10 bytes or more. -/
theorem Selected.contRaw_len {v u : State} {w : Fetched} {platform version flags : Byte} (h : Selected v w u)
    (hi : instrOf v.cfg w = some (.contRaw platform version flags)) : 10 ≤ v.inLen := by
  obtain ⟨hds, haw⟩ := h.rowAt hi
  obtain ⟨hdec, -⟩ := instrOf_eq_some.mp hi
  have off {d : DState} {P : Prop} (h : v.sess.ds = d) (hd : DState.container ≠ d) : P := absurd (hds.symm.trans h) hd
  have within {c : Ctx} {P : Prop} (h : awaited v = c) (hc : Ctx.started ≠ c) : P := absurd (haw.symm.trans h) hc
  cases h with
  | container _ _ _ _ _ _ hlen => exact hlen
  | badMagic magic _ _ hne =>
    have hdec : Except.ok (decodeContainer v.cfg (magic ++ 0#24)) = _ := hdec
    rw [decodeContainer_of_ne hne] at hdec
    cases hdec
  | rawPayload h | frame _ h | stream _ h | block _ h | rawByte _ h => exact off h nofun
  | mainSym _ h => exact h.elim (off · nofun) (off · nofun)
  | alignedLens _ h | pretree _ _ h | preSym _ _ _ _ h | lenFooter _ h | alignedSym _ _ h | uncompBody _ h | oddPad h =>
    exact within h nofun

/-- The engine's turn, the engine alone on the schedule. -/
theorem fetch_eq_of_nil {s : State} (hs : s.sched = []) :
    fetch s = if s.pend = none ∧ s.busy = false then .quiet s
      else if s.pend = none ∧ s.sess.ds = .frameHdr ∧ s.sess.produced = s.sess.decSize then .complete s
      else turnedOf s (selector s) := by
  cases hp : s.pend with
  | some p =>
    rw [fetch_of_pend hp, if_neg (fun h => nomatch h.1), if_neg (fun h => nomatch h.1), selector, hp]
  | none =>
    rw [fetch_of_nil hp hs, engineTurn, selector, hp]
    simp only [true_and]

/-- An engine's turn in two runs in step. -/
theorem turn_follows {s t : State} (hv : s.cfg.valid = true) (h : inStep s t)
    (hs : fetch s = turnedOf s (selector s)) (ht : fetch t = turnedOf t (selector t)) : Follows (step s) (step t) := by
  have halike := selector_alike h
  have hcfg : t.cfg = s.cfg := by
    obtain ⟨q, rfl, -⟩ := h
    rfl
  have hvt : t.cfg.valid = true := hcfg ▸ hv
  intro s' hs'
  cases hx : selector s with
  | none =>
    obtain ⟨-, h | ⟨_, h, -⟩ | ⟨_, h, -⟩ | ⟨_, _, _, h, -⟩ | ⟨_, _, _, h, -⟩⟩ := step_cases hs' <;>
    · rw [hs, hx] at h
      cases h
  | some x =>
    have hsel := selector_within hx
    rw [hx] at hs halike
    cases hy : selector t with
    | none =>
      rw [hy] at halike
      exact halike.elim
    | some y =>
      rw [hy] at ht halike
      cases x with
      | ok w u =>
        cases y with
        | ok w' v =>
          obtain ⟨rfl, huv⟩ := halike
          obtain ⟨-, h | ⟨_, h, -⟩ | ⟨_, h, -⟩ | ⟨_, _, i, h, hi, hexec⟩ | ⟨_, _, _, h, -⟩⟩ := step_cases hs'
          all_goals rw [hs] at h
          all_goals cases h
          have hu : readerOnly (begin s) u := Selected.readerOnly hsel
          have hcfgu : u.cfg = (begin s).cfg := readerOnly_cfg hu
          have hiv : instrOf v.cfg w = some i := by
            obtain ⟨q, rfl, -⟩ := huv
            exact hi
          rw [step_of_element hvt ht hiv]
          refine exec_follows (Selected.not_host hsel hi) huv (fun hraw => ?_) (fun _ _ _ hcont => ?_) s' hexec
          · rw [readerOnly_sess hu]
            exact (hraw ▸ Selected.rowAt hsel hi : rowAt .rawCopy _ _).1
          · rw [readerOnly_inLen hu]
            exact Selected.contRaw_len hsel (hcfgu ▸ hcont ▸ hi)
        | raise | refuse => exact halike.elim
      | raise e m =>
        cases y with
        | raise e' n =>
          cases halike
          rw [step_of_raised hv hs] at hs'
          cases hs'
          exact ⟨_, step_of_raised hvt ht, .inr (atRest_takeFault e m n (inStep_begin h))⟩
        | ok | refuse => exact halike.elim
      | refuse k =>
        obtain ⟨-, h | ⟨_, h, -⟩ | ⟨_, h, -⟩ | ⟨_, _, _, h, -⟩ | ⟨_, _, _, h, -⟩⟩ := step_cases hs' <;>
        · rw [hs] at h
          cases h

/-- Two runs in step take their next step together. -/
theorem step_follows {s t : State} (h : inStep s t) : Follows (step s) (step t) := by
  intro s' hs'
  obtain ⟨hv, -⟩ := step_cases hs'
  have hstep := h
  obtain ⟨q, rfl, hq⟩ := h
  have hvt : (q.put s).cfg.valid = true := hv
  have hfs := fetch_eq_of_nil hq.alone.1
  have hft := fetch_eq_of_nil (s := q.put s) hq.alone.2
  by_cases hquiet : s.pend = none ∧ s.busy = false
  · rw [if_pos hquiet] at hfs
    rw [if_pos (by exact hquiet)] at hft
    rw [step_of_quiet hv hfs] at hs'
    cases hs'
    exact ⟨_, step_of_quiet hvt hft, .inl hstep⟩
  · rw [if_neg hquiet] at hfs
    rw [if_neg (by exact hquiet)] at hft
    by_cases hend : s.pend = none ∧ s.sess.ds = .frameHdr ∧ s.sess.produced = s.sess.decSize
    · rw [if_pos hend] at hfs
      rw [if_pos (by exact hend)] at hft
      rw [step_of_complete hv hfs] at hs'
      cases hs'
      refine ⟨_, step_of_complete hvt hft, .inl (inStep_map hstep endDone (fun _ => rfl) rfl (.inl nofun) (.inr rfl))⟩
    · rw [if_neg hend] at hfs
      rw [if_neg (by exact hend)] at hft
      exact turn_follows hv hstep hfs hft s' hs'

/-! ## The runs -/

theorem inStep.sameRun {s t : State} (h : inStep s t) : Machine.sameRun s t := by
  obtain ⟨q, rfl, hq⟩ := h
  exact ⟨rfl, fun a ha => hq.output a (.inl ha)⟩

/-- At rest nothing moves. -/
theorem step_of_atRest {s t s' : State} (h : atRest s t) (hs : step s = .next s') : s' = s ∧ step t = .next t := by
  obtain ⟨hp, hb, hss, hst, heq, -⟩ := h
  obtain ⟨hv, -⟩ := step_cases hs
  have hquiet {u : State} (hp : u.pend = none) (hb : u.busy = false) (hu : u.sched = []) : fetch u = .quiet u := by
    rw [fetch_eq_of_nil hu, if_pos ⟨hp, hb⟩]
  rw [step_of_quiet hv (hquiet hp hb hss)] at hs
  cases hs
  refine ⟨rfl, step_of_quiet ?_ (hquiet ?_ ?_ hst)⟩
  · rw [heq]
    exact hv
  · rw [heq]
    exact hp
  · rw [heq]
    exact hb

theorem step_of_runSteps {k : Nat} {s s' : State} (h : runSteps (k + 1) s = .next s') : ∃ u, step s = .next u := by
  cases hstep : step s with
  | next u => exact ⟨u, rfl⟩
  | fault r | refused r =>
    have hcore : Sys2Proof.core.step s = _ := hstep
    simp only [runSteps, Host.Core.run, hcore] at h
    cases h

/-- Two runs in step, or at rest alike, stay so for every number of steps. -/
theorem runSteps_follows (k : Nat) {s t s' : State} (h : inStep s t ∨ atRest s t) (hrun : runSteps k s = .next s') :
    ∃ t', runSteps k t = .next t' ∧ sameRun s' t' := by
  induction k generalizing s t with
  | zero =>
    cases hrun
    refine ⟨t, rfl, ?_⟩
    obtain h | ⟨-, -, -, -, h⟩ := h
    · exact h.sameRun
    · exact h
  | succ k ih =>
    obtain ⟨u, hu⟩ := step_of_runSteps hrun
    rw [runSteps_succ hu] at hrun
    obtain h | h := h
    · obtain ⟨v, hv, huv⟩ := step_follows h u hu
      rw [runSteps_succ hv]
      exact ih huv hrun
    · obtain ⟨rfl, ht⟩ := step_of_atRest h hu
      rw [runSteps_succ ht]
      exact ih (.inr h) hrun

/-- Settles O31: START leaves two runs in step, and every step keeps them so or ends both alike. -/
theorem sameLaunchSameRun : Obligations.SameLaunchSameRun := by
  unfold Obligations.SameLaunchSameRun
  intro k s t s0 t0 s' hs ht hss hst hcfg hlen hfile hs0 ht0 hrun
  refine runSteps_follows k (.inl ?_) hrun
  obtain ⟨hstart, -⟩ := startResult 1 s rfl rfl
  obtain ⟨hstart', -⟩ := startResult 1 t rfl rfl
  rw [hstart hs] at hs0
  rw [hstart' ht] at ht0
  cases hs0
  cases ht0
  refine ⟨⟨t.inp, t.out, false, t.cmdIgnored, t.sched, .ok, t.busErr, t.draws⟩, ?_, ⟨hss, hst⟩, fun a ha => ?_,
    Nat.zero_le _, sessionHistory_of_written_zero rfl rfl, nofun,
    fun a ha => absurd (ha.elim id id) (Nat.not_lt_zero a)⟩
  · rw [hcfg, hlen]
    rfl
  · obtain ⟨hsome, hsame⟩ := hfile a ha
    obtain ⟨b, hb⟩ := Option.isSome_iff_exists.mp hsome
    exact ⟨b, hb, hsame.trans hb⟩

end Sys2Proof.Machine
end
